-- ==== Sys2Proof/Word.lean ====
section
/-! DEFINITION. The word of CORE (spec/00_scope.md R8, R10): 32 bits, two's complement. -/

namespace Sys2Proof

/-- W-bit word with W = 32 (R8, decision D2): program words, stack slots, globals, ip, sp, fp, output
values and the host-visible registers. Its signed value is `BitVec.toInt` (R10). DESIGN CHOICE (A1): the
width is fixed at the value the spec gives it; safe for W = 32. -/
abbrev Word := BitVec 32

end Sys2Proof
end

