-- ==== Sys2Proof/Config.lean ====
section
/-! DEFINITION. What an implementation of CORE fixes (spec/00_scope.md R8), and the free values: what the
spec leaves unspecified (spec/93_implementation_defined.md section 2). -/

namespace Sys2Proof

/-- `OPCODE_OF` of R8 and R74 as plain data: the word that encodes each of the 18 mnemonics. -/
structure OpcodeMap where
  halt : Word
  iadd : Word
  isub : Word
  imul : Word
  ilt : Word
  ieq : Word
  br : Word
  brt : Word
  brf : Word
  iconst : Word
  load : Word
  gload : Word
  store : Word
  gstore : Word
  print : Word
  pop : Word
  call : Word
  ret : Word
  deriving DecidableEq, Repr

/-- The parameters of one CORE, fixed for its life (R8, R25). PROG_LEN, START_IP and NGLOBALS are host
inputs of one run and stand in the state. -/
structure Config where
  /-- `STACK_CAP`, OPEN (decision D4): the number of stack slots; host-visible register 10, hardwired. -/
  stackCap : Word
  /-- `GLOBALS_MAX`, OPEN (decision D5): the most global slots CORE can hold. -/
  globalsMax : Word
  /-- `OPCODE_OF` (decision D1). -/
  opcodes : OpcodeMap
  deriving DecidableEq, Repr

/-- The places whose content the spec calls unspecified in some state: every register after Dispose
(R234, R237), and a dead stack slot at any time (R27, decision D20). `progWord` is a word that PROG_LEN
covers and no program binds, which no reachable state has (A14). -/
inductive FreePlace where
  | ip | sp | fp
  | faultPc | faultValue
  | progLen | startIp | nglobals
  | stackSlot (i : Nat)
  | progWord (a : Nat)
  deriving DecidableEq, Repr

/-- The unspecified word at a place, for the draw of the given number (A7, A8, A9): no body, so that no
proof knows a value of it. -/
opaque Config.freeWord : Nat → FreePlace → Word

/-- An unspecified sequence of words: OUT (0) and P (1) after Dispose (R234, A9). -/
opaque Config.freeWords : Nat → Nat → List Word

/-- Unspecified contents of the globals after Dispose (R234, A9), as index and word pairs in any order. -/
opaque Config.freeCells : Nat → List (Nat × Word)

/-- An unspecified number, read as a cause code modulo 8: FAULT_CAUSE after Dispose (R234, A9). -/
opaque Config.freeCode : Nat → Nat

end Sys2Proof
end

