-- ==== Sys2Proof/Syntax.lean ====
section
/-! DEFINITION. The instruction set, whole (spec/00_scope.md R2, spec/30_encoding.md R71 to R74): the 18
mnemonics, and one constructor of `Instr` for each row of spec/opcode_table.json. -/

namespace Sys2Proof

/-- The closed vocabulary of R2, in the order of the table of R74. -/
inductive Mnemonic where
  | halt | iadd | isub | imul | ilt | ieq
  | br | brt | brf
  | iconst | load | gload | store | gstore
  | print | pop | call | ret
  deriving DecidableEq, Repr

/-- All 18, in the order of the table of R74. -/
def Mnemonic.all : List Mnemonic :=
  [.halt, .iadd, .isub, .imul, .ilt, .ieq, .br, .brt, .brf, .iconst, .load, .gload, .store, .gstore,
   .print, .pop, .call, .ret]

/-- How many operand words follow the opcode word (R73). -/
def Mnemonic.arity : Mnemonic → Nat
  | .halt => 0
  | .iadd => 0
  | .isub => 0
  | .imul => 0
  | .ilt => 0
  | .ieq => 0
  | .br => 1
  | .brt => 1
  | .brf => 1
  | .iconst => 1
  | .load => 1
  | .gload => 1
  | .store => 1
  | .gstore => 1
  | .print => 0
  | .pop => 0
  | .call => 2
  | .ret => 0

/-- `OPCODE_OF(m)` under the map (R74). -/
def OpcodeMap.of (c : OpcodeMap) : Mnemonic → Word
  | .halt => c.halt
  | .iadd => c.iadd
  | .isub => c.isub
  | .imul => c.imul
  | .ilt => c.ilt
  | .ieq => c.ieq
  | .br => c.br
  | .brt => c.brt
  | .brf => c.brf
  | .iconst => c.iconst
  | .load => c.load
  | .gload => c.gload
  | .store => c.store
  | .gstore => c.gstore
  | .print => c.print
  | .pop => c.pop
  | .call => c.call
  | .ret => c.ret

/-- One instruction with its operand words taken whole (R72): A is a target (BR, BRT, BRF, CALL), a value
(ICONST), a signed frame offset (LOAD, STORE) or a global index (GLOAD, GSTORE); B is CALL's argument
count. -/
inductive Instr where
  | halt
  | iadd
  | isub
  | imul
  | ilt
  | ieq
  | br (target : Word)
  | brt (target : Word)
  | brf (target : Word)
  | iconst (value : Word)
  | load (offset : Word)
  | gload (index : Word)
  | store (offset : Word)
  | gstore (index : Word)
  | print
  | pop
  | call (target argc : Word)
  | ret
  deriving DecidableEq, Repr

/-- The row of the opcode table an instruction belongs to. -/
def Instr.mnemonic : Instr → Mnemonic
  | .halt => .halt
  | .iadd => .iadd
  | .isub => .isub
  | .imul => .imul
  | .ilt => .ilt
  | .ieq => .ieq
  | .br _ => .br
  | .brt _ => .brt
  | .brf _ => .brf
  | .iconst _ => .iconst
  | .load _ => .load
  | .gload _ => .gload
  | .store _ => .store
  | .gstore _ => .gstore
  | .print => .print
  | .pop => .pop
  | .call _ _ => .call
  | .ret => .ret

/-- The operand words in the order they follow the opcode word (R71). -/
def Instr.operands : Instr → List Word
  | .halt => []
  | .iadd => []
  | .isub => []
  | .imul => []
  | .ilt => []
  | .ieq => []
  | .br a => [a]
  | .brt a => [a]
  | .brf a => [a]
  | .iconst a => [a]
  | .load a => [a]
  | .gload a => [a]
  | .store a => [a]
  | .gstore a => [a]
  | .print => []
  | .pop => []
  | .call a b => [a, b]
  | .ret => []

end Sys2Proof
end

