-- ==== Sys2Proof/WellFormed.lean ====
section
/-! DEFINITION. The checks on terms: an instruction, an opcode map, the parameters of a CORE and a
sequence of words that is to be one instruction. -/

namespace Sys2Proof

/-- As many operand words as the mnemonic's arity (R73). No operand value is illegal (R72, R77), so every
term of `Instr` passes: Laws/PerInstr.lean proves it, constructor by constructor. -/
def Instr.wellFormed (i : Instr) : Bool := i.operands.length == i.mnemonic.arity

/-- Any injective map will do for `OPCODE_OF` (R8, R74); one with two mnemonics on one word will not. -/
def OpcodeMap.wellFormed (c : OpcodeMap) : Bool := decide (Mnemonic.all.map c.of).Nodup

/-- The ranges of R8: `1 <= STACK_CAP`, `0 <= GLOBALS_MAX` (the upper bounds hold of every word), and an
injective opcode map. -/
def Config.wellFormed (c : Config) : Bool :=
  decide (1 ≤ c.stackCap.toInt) && decide (0 ≤ c.globalsMax.toInt) && c.opcodes.wellFormed

/-- The words are one whole instruction under the map (R71, R78): an opcode word of the vocabulary, then
exactly as many words as its arity. -/
def OpcodeMap.wordsWellFormed (c : OpcodeMap) : List Word → Bool
  | [] => false
  | w :: operands => Mnemonic.all.any fun m => c.of m == w && operands.length == m.arity

end Sys2Proof
end

