-- ==== Sys2Proof/Decode.lean ====
section
/-! DEFINITION. Decoding words into an instruction (spec/30_encoding.md R70 to R79) and encoding one back,
over any opcode map, with the default map of R74. -/

namespace Sys2Proof

/-- CORE's default encoding: the table of R74 (decision D1). -/
def OpcodeMap.default : OpcodeMap where
  halt := 0
  iadd := 1
  isub := 2
  imul := 3
  ilt := 4
  ieq := 5
  br := 6
  brt := 7
  brf := 8
  iconst := 9
  load := 10
  gload := 11
  store := 12
  gstore := 13
  print := 14
  pop := 15
  call := 16
  ret := 17

/-- The mnemonic a word at an opcode position names: the whole word is compared (R75). Under an injective
map there is at most one; under another, which R8 does not allow, the first of the table (A3). -/
def OpcodeMap.mnemonic? (c : OpcodeMap) (w : Word) : Option Mnemonic :=
  Mnemonic.all.find? fun m => c.of m == w

/-- What decoding a sequence of words gives. -/
inductive Decoded where
  /-- One instruction, and the words after it. -/
  | ok (i : Instr) (rest : List Word)
  /-- The first word names no instruction (R76). -/
  | invalidOpcode (w : Word)
  /-- The sequence ends before word `j` of the instruction (0 the opcode word, 1 operand A, 2 operand B). -/
  | missing (j : Nat)
  deriving DecidableEq, Repr

/-- Format I: operand A is the word after the opcode word (R71). -/
def decodeOne (k : Word → Instr) : List Word → Decoded
  | [] => .missing 1
  | a :: rest => .ok (k a) rest

/-- Format II: operands A and B are the two words after the opcode word (R71). -/
def decodeTwo (k : Word → Word → Instr) : List Word → Decoded
  | [] => .missing 1
  | [_] => .missing 2
  | a :: b :: rest => .ok (k a b) rest

/-- The operand words of a mnemonic (R72, R73): taken whole, never decoded (R77). -/
def decodeOperands (m : Mnemonic) (ws : List Word) : Decoded :=
  match m with
  | .halt => .ok .halt ws
  | .iadd => .ok .iadd ws
  | .isub => .ok .isub ws
  | .imul => .ok .imul ws
  | .ilt => .ok .ilt ws
  | .ieq => .ok .ieq ws
  | .br => decodeOne .br ws
  | .brt => decodeOne .brt ws
  | .brf => decodeOne .brf ws
  | .iconst => decodeOne .iconst ws
  | .load => decodeOne .load ws
  | .gload => decodeOne .gload ws
  | .store => decodeOne .store ws
  | .gstore => decodeOne .gstore ws
  | .print => .ok .print ws
  | .pop => .ok .pop ws
  | .call => decodeTwo .call ws
  | .ret => .ok .ret ws

/-- Decode the first instruction of a sequence of words: the opcode word, its arity, then its operands
(R78), in the order of the checks of R80. -/
def decode (c : OpcodeMap) : List Word → Decoded
  | [] => .missing 0
  | w :: ws =>
    match c.mnemonic? w with
    | none => .invalidOpcode w
    | some m => decodeOperands m ws

/-- The words of an instruction: the opcode value, then the operand words in order (R71, R95). -/
def encode (c : OpcodeMap) (i : Instr) : List Word := c.of i.mnemonic :: i.operands

/-- The three words, first at the lowest address, of an instruction whose bits are numbered as
spec/opcode_table.json numbers them (bit 0 the least significant of the first word); bits from `nbits` on
are 0. CORE is word-addressed, so no byte order enters (R53). -/
def tableWords (nbits w : Nat) : List Word :=
  let v := w % 2 ^ nbits
  [BitVec.ofNat 32 v, BitVec.ofNat 32 (v / 2 ^ 32), BitVec.ofNat 32 (v / 2 ^ 64)]

/-- The instruction the decoder reads from such bits, under the default map. -/
def decodeTableWord (nbits w : Nat) : Option Instr :=
  match decode OpcodeMap.default (tableWords nbits w) with
  | .ok i _ => some i
  | .invalidOpcode _ => none
  | .missing _ => none

end Sys2Proof
end

