-- ==== Sys2Proof/Machine/State.lean ====
section
/-! DEFINITION. The state of CORE as plain data (spec/10_state.md R20 to R35): every register under its own
name, the stack, the globals, the output stream, the bound program and the parameters. -/

namespace Sys2Proof.Machine

/-- RUN_STATE (R31 register 3, R230). -/
inductive RunState where
  | unbound | ready | running | halted | faulted
  deriving DecidableEq, Repr

/-- FAULT_CAUSE (R31 register 4, R201). -/
inductive Cause where
  | none
  | invalidOpcode
  | stackOverflow
  | stackUnderflow
  | invalidGlobalIndex
  | invalidFrameOffset
  | fetchOutOfRange
  | invalidArgCount
  deriving DecidableEq, Repr

/-- A register file held sparsely: index and word pairs, indices strictly rising (R50, R52; A6). In the
globals no listed word is 0 and an unlisted slot reads 0; in the stack an unlisted slot is one the spec
gives no value (A7). -/
abbrev Memory := List (Nat × Word)

/-- The architectural state of R20 with the configuration bound at initialise. `draws` alone is the
model's own. -/
structure State where
  /-- Instruction pointer (R22), register 0. -/
  ip : Word
  /-- Stack pointer (R23), register 1: index of the top occupied slot, -1 when empty. -/
  sp : Word
  /-- Frame pointer (R24), register 2. -/
  fp : Word
  /-- `S` (R25): the slots that have a specified value; a dead slot is not listed (R27, A7). -/
  stack : Memory
  /-- `G` (R26): the slots that are not 0. -/
  globals : Memory
  /-- `OUT` (R30), oldest word first. -/
  out : List Word
  /-- `RUN_STATE` (R31), register 3. -/
  runState : RunState
  /-- `FAULT_CAUSE` (R31), register 4. -/
  faultCause : Cause
  /-- `FAULT_PC` (R31), register 5. -/
  faultPc : Word
  /-- `FAULT_VALUE` (R31), register 6. -/
  faultValue : Word
  /-- `P` (R70): the words bound at initialise; a parameter of the step, held here (A5). -/
  prog : List Word
  /-- `PROG_LEN` (R31), register 7. -/
  progLen : Word
  /-- `START_IP` (R31), register 8. -/
  startIp : Word
  /-- `NGLOBALS` (R31), register 9. -/
  nglobals : Word
  /-- `STACK_CAP` (register 10), `GLOBALS_MAX` and `OPCODE_OF` (R8): never written. -/
  cfg : Config
  /-- The model's own: how many times an unspecified value has been drawn (A8, A9). -/
  draws : Nat
  deriving DecidableEq, Repr

/-- Nothing stops CORE outside its own state: each fault of R201 is an effect, FAULTED with its registers
written, and so a next state (A11). The type has no constructor. -/
inductive Fault where
  deriving DecidableEq, Repr

/-- Reasons a step has no meaning. -/
inductive Refusal where
  /-- Raised only by an arm of `exec` without a meaning, of which there is none. Safe: nothing is claimed
  of the instruction. -/
  | notModelled (mnemonic : String)
  deriving DecidableEq, Repr

/-- The outcome of an instruction. -/
abbrev Result := Host.Outcome State Fault Refusal

/-- Power-on (R237): UNBOUND. The spec gives no other register a value there but STACK_CAP, the parameter.
DESIGN CHOICE, unsafe (A4): sp, fp, G, OUT and the fault registers hold what Initialise will write (R35), the
others 0. DESIGN CHOICE, unsafe (A2): STACK_CAP is 1000, GLOBALS_MAX is 2147483647. -/
def State.reset : State where
  ip := 0
  sp := -1
  fp := -1
  stack := []
  globals := []
  out := []
  runState := .unbound
  faultCause := .none
  faultPc := 0
  faultValue := 0
  prog := []
  progLen := 0
  startIp := 0
  nglobals := 0
  cfg := { stackCap := 1000, globalsMax := 2147483647, opcodes := OpcodeMap.default }
  draws := 0

end Sys2Proof.Machine
end

