-- ==== Sys2Proof/Machine/Ops.lean ====
section
/-! DEFINITION. The named operations over the register files and registers (spec/00_scope.md R11, R12),
and taking a fault (spec/60_exceptions.md R204, R206). -/

namespace Sys2Proof.Machine

/-- `wrap_W(x)` (R11): the word whose signed value is congruent to `x` modulo 2^32. -/
def wrapW (x : Int) : Word := BitVec.ofInt 32 x

/-! ### Register files -/

/-- The listed word at an index. -/
def Memory.read? : Memory → Nat → Option Word
  | [], _ => none
  | (k, v) :: m, a => if k = a then some v else Memory.read? m a

/-- List a word at an index, keeping the indices strictly rising. -/
def Memory.put : Memory → Nat → Word → Memory
  | [], a, w => [(a, w)]
  | (k, v) :: m, a, w =>
    if a < k then (a, w) :: (k, v) :: m
    else if a = k then (a, w) :: m
    else (k, v) :: Memory.put m a w

/-- Unlist one index. -/
def Memory.drop (m : Memory) (a : Nat) : Memory := m.filter fun c => c.1 != a

/-- Keep only the indices below `n`. -/
def Memory.keepBelow (m : Memory) (n : Nat) : Memory := m.filter fun c => decide (c.1 < n)

/-- Read of a file whose unlisted slots are 0. -/
def Memory.readZero (m : Memory) (a : Nat) : Word := (Memory.read? m a).getD 0

/-- Write of a file whose unlisted slots are 0: writing 0 unlists the slot. -/
def Memory.writeZero (m : Memory) (a : Nat) (w : Word) : Memory :=
  if w = 0 then Memory.drop m a else Memory.put m a w

/-- A file whose unlisted slots are 0, from pairs in any order, a later pair winning. -/
def Memory.ofCells (cells : List (Nat × Word)) : Memory :=
  cells.foldl (fun m c => Memory.writeZero m c.1 c.2) []

/-- Indices strictly rising. -/
abbrev Memory.rising (m : Memory) : Prop := m.Pairwise fun c d => c.1 < d.1

/-- The canonical form of a file whose unlisted slots are 0: rising, and no listed 0. -/
abbrev Memory.wf (m : Memory) : Prop := Memory.rising m ∧ ∀ c ∈ m, c.2 ≠ 0

/-! ### The operand stack S -/

/-- `S[i]` (R11). A slot the spec gives no value reads as a free word; no instruction reads one in a
reachable state (R27, R28; A7). -/
def State.slot (s : State) (i : Int) : Word :=
  (Memory.read? s.stack i.toNat).getD (Config.freeWord s.draws (.stackSlot i.toNat))

/-- `S[i] <- v`. -/
def State.setSlot (i : Int) (v : Word) (s : State) : State :=
  { s with stack := Memory.put s.stack i.toNat v }

/-- `sp <- i`, downwards: the slots above become dead and keep no specified value (R12, R27). -/
def State.lowerSp (i : Int) (s : State) : State :=
  { s with sp := wrapW i, stack := Memory.keepBelow s.stack (i + 1).toNat }

/-- Push (R12): `sp <- sp + 1` then `S[sp] <- v`. -/
def State.push (v : Word) (s : State) : State :=
  { s with sp := wrapW (s.sp.toInt + 1), stack := Memory.put s.stack (s.sp.toInt + 1).toNat v }

/-- The effect of a pop on sp and the slot (R12): `sp <- sp - 1`. -/
def State.pop (s : State) : State := s.lowerSp (s.sp.toInt - 1)

/-- The top of stack, `S[sp]`. -/
def State.top (s : State) : Word := s.slot s.sp.toInt

/-! ### The globals G, the pointers and OUT -/

/-- `G[k]` (R11). -/
def State.global (s : State) (k : Int) : Word := Memory.readZero s.globals k.toNat

/-- `G[k] <- v`. -/
def State.setGlobal (k : Int) (v : Word) (s : State) : State :=
  { s with globals := Memory.writeZero s.globals k.toNat v }

/-- `ip <- v`. -/
def State.setIp (v : Word) (s : State) : State := { s with ip := v }

/-- `fp <- v`. -/
def State.setFp (v : Word) (s : State) : State := { s with fp := v }

/-- `RUN_STATE <- r`. -/
def State.setRunState (r : RunState) (s : State) : State := { s with runState := r }

/-- `Out(v)` (R11): append to OUT. -/
def State.emit (v : Word) (s : State) : State := { s with out := s.out ++ [v] }

/-! ### Taking a fault -/

/-- `TakeFault(cause, value)` (R204), from the state at the start of the instruction, where ip is pc0. -/
def takeFault (c : Cause) (value : Word) (s : State) : State :=
  { s with faultCause := c, faultPc := s.ip, faultValue := value, runState := .faulted }

/-- `raise C(value)` (R205): a next state, since the spec says what taking the fault does (A11). There is
no return from a fault (R208). -/
def raise (c : Cause) (value : Word) (s : State) : Result := .next (takeFault c value s)

/-- INVALID_OPCODE (R206): as any fault, but ip is left at pc0 + 1. -/
def raiseInvalidOpcode (w : Word) (s : State) : Result :=
  .next ((takeFault .invalidOpcode w s).setIp (wrapW (s.ip.toInt + 1)))

/-- A step outside RUNNING: no instruction is taken (R80) and the state stays as it is (A10). -/
def idle (s : State) : Result := .next s

end Sys2Proof.Machine
end

