-- ==== Sys2Proof/Machine/Flags.lean ====
section
/-! DEFINITION. CORE has no flags, condition codes or predicates (spec/10_state.md R29). What other machines
keep in flags is a word on the stack: 1 for true, 0 for false. -/

namespace Sys2Proof.Machine

/-- The integers 1 (true) and 0 (false) as words (R29). -/
def truthWord (b : Bool) : Word := if b then 1 else 0

/-- ILT's result (R120, R124): 1 if `a < b` as signed integers, else 0. -/
def lessThan (a b : Word) : Word := truthWord (decide (a.toInt < b.toInt))

/-- IEQ's result (R120, R125): 1 if `a == b`, else 0. -/
def equalTo (a b : Word) : Word := truthWord (decide (a.toInt = b.toInt))

end Sys2Proof.Machine
end

