-- ==== Sys2Proof/Machine/Operands.lean ====
section
/-! DEFINITION. The operand forms: the address after the instruction (spec/00_scope.md R11), operands taken
from the stack (spec/41_alu.md R120), frame-relative slots (spec/43_data.md R160), global indices
(spec/43_data.md R163) and branch targets (spec/42_branch.md R140). -/

namespace Sys2Proof.Machine

/-- `next = pc0 + 1 + arity` (R11), where ip is pc0. -/
def State.nextIp (s : State) (arity : Nat) : Word := wrapW (s.ip.toInt + 1 + arity)

/-- End the instruction with `ip <- next` (R83); `s0` is the state at its start. -/
def State.advance (s0 : State) (arity : Nat) (s : State) : State := s.setIp (s0.nextIp arity)

/-- `idx = fp + offset` on unbounded integers (R160, R10). -/
abbrev State.frameIndex (s : State) (offset : Word) : Int := s.fp.toInt + offset.toInt

/-- At least `n` words are on the stack: `sp >= n - 1`. -/
abbrev State.holds (s : State) (n : Nat) : Prop := (n : Int) - 1 ≤ s.sp.toInt

/-- `n` more words fit: `sp + n <= STACK_CAP - 1`. -/
abbrev State.fits (s : State) (n : Nat) : Prop := s.sp.toInt + n ≤ s.cfg.stackCap.toInt - 1

/-- `0 <= k <= NGLOBALS - 1` (R163, R165). -/
abbrev State.isGlobal (s : State) (k : Word) : Prop := 0 ≤ k.toInt ∧ k.toInt ≤ s.nglobals.toInt - 1

/-- Pop b and a, push `op a b`, the deeper word the left operand (R120). -/
def aluOp (op : Word → Word → Word) (s : State) : Result :=
  if s.holds 2 then
    .next (s.advance 0 ((s.lowerSp (s.sp.toInt - 1)).setSlot (s.sp.toInt - 1)
      (op (s.slot (s.sp.toInt - 1)) s.top)))
  else raise .stackUnderflow s.sp s

/-- Pop a condition; `ip <- target` if it equals `expected`, else `ip <- next` (R142, R143). -/
def branchOn (expected target : Word) (s : State) : Result :=
  if s.holds 1 then
    .next (s.pop.setIp (if s.top = expected then target else s.nextIp 1))
  else raise .stackUnderflow s.sp s

/-- Push a word as the result of a format I instruction, if it fits (R161, R162, R163). -/
def pushResult (v : Word) (s : State) : Result :=
  if s.fits 1 then .next (s.advance 1 (s.push v))
  else raise .stackOverflow s.sp s

end Sys2Proof.Machine
end

