-- ==== Sys2Proof/Machine/Alu.lean ====
section
/-! DEFINITION. IADD, ISUB, IMUL, ILT and IEQ (spec/41_alu.md): exact on integers, then wrapped (R120). -/

namespace Sys2Proof.Machine

/-- IADD (R121). -/
def execIadd (s : State) : Result := aluOp (fun a b => wrapW (a.toInt + b.toInt)) s

/-- ISUB (R122). -/
def execIsub (s : State) : Result := aluOp (fun a b => wrapW (a.toInt - b.toInt)) s

/-- IMUL (R123). -/
def execImul (s : State) : Result := aluOp (fun a b => wrapW (a.toInt * b.toInt)) s

/-- ILT (R124). -/
def execIlt (s : State) : Result := aluOp lessThan s

/-- IEQ (R125). -/
def execIeq (s : State) : Result := aluOp equalTo s

end Sys2Proof.Machine
end

