-- ==== Sys2Proof/Machine/Branch.lean ====
section
/-! DEFINITION. BR, BRT and BRF (spec/42_branch.md). A target is absolute and is not checked when taken
(R140). -/

namespace Sys2Proof.Machine

/-- BR (R141). -/
def execBr (target : Word) (s : State) : Result := .next (s.setIp target)

/-- BRT (R142): branches on 1, and on nothing else (R144). -/
def execBrt (target : Word) (s : State) : Result := branchOn 1 target s

/-- BRF (R143): branches on 0, and on nothing else (R144). -/
def execBrf (target : Word) (s : State) : Result := branchOn 0 target s

end Sys2Proof.Machine
end

