-- ==== Sys2Proof/Machine/Data.lean ====
section
/-! DEFINITION. ICONST, LOAD, GLOAD, STORE, GSTORE and POP (spec/43_data.md). -/

namespace Sys2Proof.Machine

/-- ICONST (R161). -/
def execIconst (value : Word) (s : State) : Result := pushResult value s

/-- LOAD (R162): the frame index is checked before the push. -/
def execLoad (offset : Word) (s : State) : Result :=
  if 0 ≤ s.frameIndex offset ∧ s.frameIndex offset ≤ s.sp.toInt then
    pushResult (s.slot (s.frameIndex offset)) s
  else raise .invalidFrameOffset offset s

/-- GLOAD (R163): the index is checked before the push. -/
def execGload (index : Word) (s : State) : Result :=
  if s.isGlobal index then pushResult (s.global index.toInt) s
  else raise .invalidGlobalIndex index s

/-- STORE (R164): the slot must lie in the live window left after the pop. -/
def execStore (offset : Word) (s : State) : Result :=
  if s.holds 1 then
    if 0 ≤ s.frameIndex offset ∧ s.frameIndex offset ≤ s.sp.toInt - 1 then
      .next (s.advance 1 (s.pop.setSlot (s.frameIndex offset) s.top))
    else raise .invalidFrameOffset offset s
  else raise .stackUnderflow s.sp s

/-- GSTORE (R165): the pop is checked before the index. -/
def execGstore (index : Word) (s : State) : Result :=
  if s.holds 1 then
    if s.isGlobal index then .next (s.advance 1 (s.pop.setGlobal index.toInt s.top))
    else raise .invalidGlobalIndex index s
  else raise .stackUnderflow s.sp s

/-- POP (R166). -/
def execPop (s : State) : Result :=
  if s.holds 1 then .next (s.advance 0 s.pop)
  else raise .stackUnderflow s.sp s

end Sys2Proof.Machine
end

