-- ==== Sys2Proof/Machine/Procedure.lean ====
section
/-! DEFINITION. CALL and RET (spec/44_procedure.md). fp is the index of the saved-ip slot (R180,
spec/90_conflicts.md C1). -/

namespace Sys2Proof.Machine

/-- CALL (R181): push n, the caller's fp and the address after the CALL; fp is sp after the pushes. -/
def execCall (target argc : Word) (s : State) : Result :=
  if s.fits 3 then
    .next ((((s.push argc).push s.fp).push (s.nextIp 2)).setFp (wrapW (s.sp.toInt + 3)) |>.setIp target)
  else raise .stackOverflow s.sp s

/-- What RET does once its checks have passed (R182): `sp <- fp - 2 - n`, `S[sp] <- rv`, and ip and fp from
the frame. -/
def unwindFrame (s : State) : State :=
  let base := s.fp.toInt
  let sp' := base - 2 - (s.slot (base - 2)).toInt
  (((s.lowerSp sp').setSlot sp' s.top).setIp (s.slot base)).setFp (s.slot (base - 1))

/-- RET (R182), its checks in the order the rule lists them. -/
def execRet (s : State) : Result :=
  if s.holds 1 then
    if 2 ≤ s.fp.toInt then
      if s.fp.toInt ≤ s.sp.toInt - 1 then
        if 0 ≤ (s.slot (s.fp.toInt - 2)).toInt then
          if (s.slot (s.fp.toInt - 2)).toInt ≤ s.fp.toInt - 2 then .next (unwindFrame s)
          else raise .stackUnderflow (s.slot (s.fp.toInt - 2)) s
        else raise .invalidArgCount (s.slot (s.fp.toInt - 2)) s
      else raise .invalidFrameOffset s.fp s
    else raise .stackUnderflow s.fp s
  else raise .stackUnderflow s.sp s

end Sys2Proof.Machine
end

