-- ==== Sys2Proof/Machine/System.lean ====
section
/-! DEFINITION. HALT and PRINT (spec/40_system.md). -/

namespace Sys2Proof.Machine

/-- HALT (R100). -/
def execHalt (s : State) : Result := .next (s.advance 0 (s.setRunState .halted))

/-- PRINT (R101). -/
def execPrint (s : State) : Result :=
  if s.holds 1 then .next (s.advance 0 (s.pop.emit s.top))
  else raise .stackUnderflow s.sp s

end Sys2Proof.Machine
end

