-- ==== Sys2Proof/Machine/Dispatch.lean ====
section
/-! DEFINITION. Dispatch is exhaustive over the 18 instructions (spec/30_encoding.md R81). -/

namespace Sys2Proof.Machine

/-- The instruction `i` at the state of its start, where ip is pc0 (R80). -/
def exec (i : Instr) (s : State) : Host.Outcome State Fault Refusal :=
  match i with
  | .halt => Sys2Proof.Machine.execHalt s
  | .iadd => Sys2Proof.Machine.execIadd s
  | .isub => Sys2Proof.Machine.execIsub s
  | .imul => Sys2Proof.Machine.execImul s
  | .ilt => Sys2Proof.Machine.execIlt s
  | .ieq => Sys2Proof.Machine.execIeq s
  | .br target => Sys2Proof.Machine.execBr target s
  | .brt target => Sys2Proof.Machine.execBrt target s
  | .brf target => Sys2Proof.Machine.execBrf target s
  | .iconst value => Sys2Proof.Machine.execIconst value s
  | .load offset => Sys2Proof.Machine.execLoad offset s
  | .gload index => Sys2Proof.Machine.execGload index s
  | .store offset => Sys2Proof.Machine.execStore offset s
  | .gstore index => Sys2Proof.Machine.execGstore index s
  | .print => Sys2Proof.Machine.execPrint s
  | .pop => Sys2Proof.Machine.execPop s
  | .call target argc => Sys2Proof.Machine.execCall target argc s
  | .ret => Sys2Proof.Machine.execRet s

end Sys2Proof.Machine
end

