-- ==== Sys2Proof/Machine/Fetch.lean ====
section
/-! DEFINITION. Fetching the words of the instruction at ip (spec/30_encoding.md R80), and placing words
where the next fetch reads them. -/

namespace Sys2Proof.Machine

/-- `0 <= a <= PROG_LEN - 1` (R80). -/
abbrev State.inProgram (s : State) (a : Int) : Prop := 0 ≤ a ∧ a ≤ s.progLen.toInt - 1

/-- `P[a]` (R11). Where PROG_LEN covers more than the bound words, which no reachable state has, a free
word (A14). -/
def State.progWord (s : State) (a : Int) : Word :=
  (s.prog[a.toNat]?).getD (Config.freeWord s.draws (.progWord a.toNat))

/-- The at most `n` words from address `a` on, up to the first address outside the program. -/
def State.window (s : State) (a : Int) : Nat → List Word
  | 0 => []
  | n + 1 => if s.inProgram a then s.progWord a :: s.window (a + 1) n else []

/-- What the fetch and decode part of a step finds. -/
inductive Fetched where
  | instr (i : Instr)
  | invalidOpcode (w : Word)
  /-- The first word of the instruction that lies outside the program, by its address. -/
  | outOfRange (a : Int)
  deriving DecidableEq, Repr

/-- Fetch and decode at ip (R80): the opcode word's address is checked first, then the opcode, then each
operand word's address (R203). -/
def fetch (s : State) : Fetched :=
  match decode s.cfg.opcodes (s.window s.ip.toInt 3) with
  | .ok i _ => .instr i
  | .invalidOpcode w => .invalidOpcode w
  | .missing j => .outOfRange (s.ip.toInt + j)

/-- FETCH_OUT_OF_RANGE with the address that could not be fetched (R80, R201). -/
def raiseFetch (a : Int) (s : State) : Result := raise .fetchOutOfRange (wrapW a) s

/-- `words` laid over `prog` from index `a` on; a gap before them holds 0. -/
def overlay (prog : List Word) (a : Nat) (words : List Word) : List Word :=
  prog.take a ++ List.replicate (a - prog.length) 0 ++ words ++ prog.drop (a + words.length)

/-- Three words at ip, inside the program, with CORE RUNNING: what the next step fetches. Where three words
do not fit at ip below 2^31 - 1, ip is 0 (A12). -/
def State.placeAtIp (s : State) (words : List Word) : State :=
  let a := if 0 ≤ s.ip.toInt ∧ s.ip.toInt + 3 ≤ 2147483647 then s.ip.toInt else 0
  let prog := overlay s.prog a.toNat words
  { s with ip := wrapW a, prog := prog, progLen := BitVec.ofNat 32 (min prog.length 2147483647), runState := .running }

end Sys2Proof.Machine
end

