-- ==== Sys2Proof/Machine/Step.lean ====
section
/-! DEFINITION. One step of the dispatch loop (spec/30_encoding.md R80, R82). -/

namespace Sys2Proof.Machine

/-- One step: in RUNNING one instruction is fetched, decoded and executed, or its fault taken; in the other
states none is taken (R80). -/
def step (s : State) : Host.Outcome State Fault Refusal :=
  match s.runState with
  | .running =>
    match fetch s with
    | .instr i => exec i s
    | .invalidOpcode w => raiseInvalidOpcode w s
    | .outOfRange a => raiseFetch a s
  | .unbound => idle s
  | .ready => idle s
  | .halted => idle s
  | .faulted => idle s

/-- The instruction whose bits are `w`, numbered as spec/opcode_table.json numbers them, placed where the
next step fetches, with CORE RUNNING (A12). -/
def State.withFetchWord (s : State) (nbits w : Nat) : State := s.placeAtIp (tableWords nbits w)

end Sys2Proof.Machine
end

