-- ==== Sys2Proof/Machine/Output.lean ====
section
/-! DEFINITION. The text form a host gives the output stream (spec/40_system.md R102), as bytes. -/

namespace Sys2Proof.Machine

/-- The decimal digits of a number (0x30 to 0x39), most significant first and with no leading zero; the
first argument bounds how many come before the last. -/
def decimalDigits : Nat → Nat → List (BitVec 8)
  | 0, n => [BitVec.ofNat 8 (0x30 + n % 10)]
  | fuel + 1, n =>
    if n < 10 then [BitVec.ofNat 8 (0x30 + n)]
    else decimalDigits fuel (n / 10) ++ [BitVec.ofNat 8 (0x30 + n % 10)]

/-- One printed word (R102): a `-` (0x2D) if negative, the digits of its magnitude, a newline (0x0A). A
magnitude is at most 2^31, which has ten digits. -/
def renderWord (v : Word) : List (BitVec 8) :=
  (if v.toInt < 0 then [0x2D] else []) ++ decimalDigits 9 v.toInt.natAbs ++ [0x0A]

/-- The text of OUT (R102): each word in order. -/
def renderOut (out : List Word) : List (BitVec 8) := out.flatMap renderWord

end Sys2Proof.Machine
end

