-- ==== Sys2Proof/Machine/Lifecycle.lean ====
section
/-! DEFINITION. The host's operations on CORE (spec/70_reset_and_hazards.md R230 to R237) and the registers it
reads (spec/10_state.md R31). A request lands between two steps (A10). -/

namespace Sys2Proof.Machine

/-! ### Host-visible registers (R31) -/

/-- The code of a lifecycle state in RUN_STATE (R31). -/
def runStateCode : RunState → Word
  | .unbound => 0
  | .ready => 1
  | .running => 2
  | .halted => 3
  | .faulted => 4

/-- The code of a cause in FAULT_CAUSE (R201). -/
def causeCode : Cause → Word
  | .none => 0
  | .invalidOpcode => 1
  | .stackOverflow => 2
  | .stackUnderflow => 3
  | .invalidGlobalIndex => 4
  | .invalidFrameOffset => 5
  | .fetchOutOfRange => 6
  | .invalidArgCount => 7

/-- The cause with a given code, modulo 8: for an unspecified FAULT_CAUSE (A9). -/
def causeOfCode (n : Nat) : Cause :=
  match n % 8 with
  | 0 => .none
  | 1 => .invalidOpcode
  | 2 => .stackOverflow
  | 3 => .stackUnderflow
  | 4 => .invalidGlobalIndex
  | 5 => .invalidFrameOffset
  | 6 => .fetchOutOfRange
  | _ => .invalidArgCount

/-- The status and configuration registers of R31. -/
inductive HostReg where
  | ip | sp | fp | runState | faultCause | faultPc | faultValue | progLen | startIp | nglobals | stackCap
  deriving DecidableEq, Repr

/-- The register's number (R31). -/
def hostRegNumber : HostReg → Nat
  | .ip => 0
  | .sp => 1
  | .fp => 2
  | .runState => 3
  | .faultCause => 4
  | .faultPc => 5
  | .faultValue => 6
  | .progLen => 7
  | .startIp => 8
  | .nglobals => 9
  | .stackCap => 10

/-- The register's word, a single field of all its bits (R31). -/
def State.register (s : State) : HostReg → Word
  | .ip => s.ip
  | .sp => s.sp
  | .fp => s.fp
  | .runState => runStateCode s.runState
  | .faultCause => causeCode s.faultCause
  | .faultPc => s.faultPc
  | .faultValue => s.faultValue
  | .progLen => s.progLen
  | .startIp => s.startIp
  | .nglobals => s.nglobals
  | .stackCap => s.cfg.stackCap

/-- The live window `[S[0], ..., S[sp]]` (R27), bottom first. -/
def State.liveStack (s : State) : List Word :=
  (List.range (s.sp.toInt + 1).toNat).map fun i : Nat => s.slot (i : Int)

/-- `[G[0], ..., G[NGLOBALS-1]]` (R26). -/
def State.globalWords (s : State) : List Word :=
  (List.range s.nglobals.toInt.toNat).map fun k : Nat => s.global (k : Int)

/-! ### Requests and replies -/

/-- What the host may ask (R231 to R235). Inspect comes whole, or one register, global or slot at a time. -/
inductive HostRequest where
  | initialise (program : List Word) (startIp : Word) (globalCount : Int)
  | run
  | dispose
  | inspect
  | readRegister (r : HostReg)
  | readGlobal (k : Nat)
  | readSlot (i : Nat)
  deriving DecidableEq, Repr

/-- What Inspect shows (R235): the eleven registers by number, the globals, the live stack and OUT. -/
structure Snapshot where
  registers : List Word
  globals : List Word
  liveStack : List Word
  out : List Word
  deriving DecidableEq, Repr

/-- CORE's answer to a request. -/
inductive HostReply where
  | done
  /-- ALLOC_FAILURE (R231). -/
  | allocFailure
  /-- The request is refused and changes no state (R236). -/
  | refused
  | word (w : Word)
  | snapshot (v : Snapshot)
  /-- No such global or slot exists: the model's own reply (A13). -/
  | noSuchPlace
  deriving DecidableEq, Repr

/-- READY, HALTED or FAULTED: the states that allow Inspect and Dispose (R234, R235). -/
def RunState.stopped : RunState → Bool
  | .unbound => false
  | .ready => true
  | .running => false
  | .halted => true
  | .faulted => true

/-- The registers of R31 in the order of their numbers. -/
def HostReg.all : List HostReg :=
  [.ip, .sp, .fp, .runState, .faultCause, .faultPc, .faultValue, .progLen, .startIp, .nglobals, .stackCap]

/-- What Inspect shows of a state (R235). -/
def State.snapshot (s : State) : Snapshot where
  registers := HostReg.all.map s.register
  globals := s.globalWords
  liveStack := s.liveStack
  out := s.out

/-- The state after a successful Initialise (R35, R231). No stack slot has a specified value (A7). -/
def initialised (program : List Word) (startIp : Word) (globalCount : Int) (s : State) : State where
  ip := startIp
  sp := -1
  fp := -1
  stack := []
  globals := []
  out := []
  runState := .ready
  faultCause := .none
  faultPc := 0
  faultValue := 0
  prog := program
  progLen := wrapW program.length
  startIp := startIp
  nglobals := wrapW globalCount
  cfg := s.cfg
  draws := s.draws

/-- The state after Dispose (R234): UNBOUND, and every other register, S, G, OUT and P unspecified, but for
the hardwired STACK_CAP and the parameters. Free values (A9). -/
def disposed (s : State) : State where
  ip := Config.freeWord s.draws .ip
  sp := Config.freeWord s.draws .sp
  fp := Config.freeWord s.draws .fp
  stack := []
  globals := Memory.ofCells (Config.freeCells s.draws)
  out := Config.freeWords s.draws 0
  runState := .unbound
  faultCause := causeOfCode (Config.freeCode s.draws)
  faultPc := Config.freeWord s.draws .faultPc
  faultValue := Config.freeWord s.draws .faultValue
  prog := Config.freeWords s.draws 1
  progLen := Config.freeWord s.draws .progLen
  startIp := Config.freeWord s.draws .startIp
  nglobals := Config.freeWord s.draws .nglobals
  cfg := s.cfg
  draws := s.draws + 1

/-- Initialise (R231): ALLOC_FAILURE exactly when the count is negative or over GLOBALS_MAX or the program
has more than 2^31 - 1 words; start_ip and the program's contents are not checked. -/
def hostInitialise (program : List Word) (startIp : Word) (globalCount : Int) (s : State) : HostReply × State :=
  if s.runState = .unbound then
    if globalCount < 0 ∨ s.cfg.globalsMax.toInt < globalCount ∨ 2147483647 < program.length then
      (.allocFailure, s)
    else (.done, initialised program startIp globalCount s)
  else (.refused, s)

/-- Run (R232): RUNNING, from READY only; the steps are `step`'s. -/
def hostRun (s : State) : HostReply × State :=
  if s.runState = .ready then (.done, s.setRunState .running) else (.refused, s)

/-- Dispose (R234). -/
def hostDispose (s : State) : HostReply × State :=
  if s.runState.stopped then (.done, disposed s) else (.refused, s)

/-- Inspect, whole (R235). -/
def hostInspect (s : State) : HostReply × State :=
  if s.runState.stopped then (.snapshot s.snapshot, s) else (.refused, s)

/-- Inspect of one register (R235): RUN_STATE is always readable. -/
def hostReadRegister (r : HostReg) (s : State) : HostReply × State :=
  if s.runState.stopped ∨ r = .runState then (.word (s.register r), s) else (.refused, s)

/-- Inspect of one global (R235). -/
def hostReadGlobal (k : Nat) (s : State) : HostReply × State :=
  if s.runState.stopped then
    if (k : Int) < s.nglobals.toInt then (.word (s.global k), s) else (.noSuchPlace, s)
  else (.refused, s)

/-- Inspect of one stack slot (R235): a live slot, `0 .. sp`, gives its word; a dead slot gives an unspecified
word, a fresh free value at each read (A8); there is no slot at or above STACK_CAP (A13). -/
def hostReadSlot (i : Nat) (s : State) : HostReply × State :=
  if s.runState.stopped then
    if (i : Int) ≤ s.sp.toInt then (.word (s.slot i), s)
    else if (i : Int) < s.cfg.stackCap.toInt then
      (.word (Config.freeWord s.draws (.stackSlot i)), { s with draws := s.draws + 1 })
    else (.noSuchPlace, s)
  else (.refused, s)

/-- One request of the host (R230): CORE's reply and the state after it. -/
def serve : HostRequest → State → HostReply × State
  | .initialise program startIp globalCount => hostInitialise program startIp globalCount
  | .run => hostRun
  | .dispose => hostDispose
  | .inspect => hostInspect
  | .readRegister r => hostReadRegister r
  | .readGlobal k => hostReadGlobal k
  | .readSlot i => hostReadSlot i

/-! ### A run (R232, R240) -/

/-- The state after `n` steps of the loop (R82). -/
def runSteps : Nat → State → State
  | 0, s => s
  | n + 1, s =>
    match step s with
    | .next t => runSteps n t
    | .fault _ => s
    | .refused _ => s

/-- The result of a run that has ended (R240): RUN_STATE, FAULT_CAUSE, FAULT_PC, FAULT_VALUE, ip, sp, fp, the
live stack, G and OUT. -/
structure RunResult where
  runState : RunState
  faultCause : Cause
  faultPc : Word
  faultValue : Word
  ip : Word
  sp : Word
  fp : Word
  liveStack : List Word
  globals : List Word
  out : List Word
  deriving DecidableEq, Repr

/-- The result tuple of a state (R240). -/
def State.result (s : State) : RunResult where
  runState := s.runState
  faultCause := s.faultCause
  faultPc := s.faultPc
  faultValue := s.faultValue
  ip := s.ip
  sp := s.sp
  fp := s.fp
  liveStack := s.liveStack
  globals := s.globalWords
  out := s.out

end Sys2Proof.Machine
end

