-- ==== Sys2Proof/Safety.lean ====
section
/-! DEFINITION. The terms in which claims about CORE are stated: its invariant, a fault taken, two states
that differ in dead slots only, and a safe run. -/

namespace Sys2Proof.Machine

/-- The outcome is the fault of R204, spelled out: the four registers written and nothing else. -/
def TakesFault (r : Result) (s : State) (c : Cause) (value : Word) : Prop :=
  r = .next { s with faultCause := c, faultPc := s.ip, faultValue := value, runState := .faulted }

/-- What holds of a bound CORE: READY, RUNNING, HALTED or FAULTED. -/
structure State.Bound (s : State) : Prop where
  /-- `-1 <= sp` (R23). -/
  sp_low : -1 ≤ s.sp.toInt
  /-- `sp <= STACK_CAP - 1` (R23). -/
  sp_high : s.sp.toInt ≤ s.cfg.stackCap.toInt - 1
  /-- Exactly the slots of the live window have a specified value (R27, R28). -/
  stack_live : ∀ i : Nat, (Memory.read? s.stack i).isSome = true ↔ (i : Int) ≤ s.sp.toInt
  /-- No global outside `0 .. NGLOBALS - 1` is held (R26). -/
  globals_fit : ∀ c ∈ s.globals, (c.1 : Int) < s.nglobals.toInt
  /-- `0 <= NGLOBALS <= GLOBALS_MAX` (R8). -/
  nglobals_low : 0 ≤ s.nglobals.toInt
  nglobals_high : s.nglobals.toInt ≤ s.cfg.globalsMax.toInt
  /-- PROG_LEN is the bound program's length (R231). -/
  prog_len : s.progLen.toInt = s.prog.length
  /-- A cause is recorded exactly in FAULTED (R31, R204). -/
  cause : s.faultCause = .none ↔ s.runState ≠ .faulted

/-- The invariant of CORE: legal parameters (R8), register files in canonical form (A6), and, unless UNBOUND,
what `Bound` says. In UNBOUND the registers are unspecified (R237). -/
structure State.Inv (s : State) : Prop where
  config : s.cfg.wellFormed = true
  stack_rising : Memory.rising s.stack
  globals_wf : Memory.wf s.globals
  bound : s.runState ≠ .unbound → s.Bound

/-- Two states that agree on everything but the slots of S above sp (R27). -/
def State.SameLive (s t : State) : Prop :=
  { s with stack := [] } = { t with stack := [] } ∧
    ∀ i : Nat, (i : Int) ≤ s.sp.toInt → Memory.read? s.stack i = Memory.read? t.stack i

/-- The frame of an instruction that may write ip, sp and the stack from slot `n` on: every other register,
G, OUT, the program and the parameters are as before, and so is every slot below `n`. -/
def ChangesOnlyStackFrom (s t : State) (n : Int) : Prop :=
  t = { s with ip := t.ip, sp := t.sp, stack := t.stack } ∧
    ∀ i : Nat, (i : Int) < n → t.slot i = s.slot i

/-- The instruction's words lie at ip, inside the program: words `j = 0 .. length - 1` at `ip + j`. -/
def State.hasAtIp (s : State) (words : List Word) : Prop :=
  ∀ j : Nat, j < words.length →
    s.inProgram (s.ip.toInt + j) ∧ words[j]? = some (s.progWord (s.ip.toInt + j))

/-- HALTED or FAULTED: the run has ended (R240). -/
def State.ended (s : State) : Prop := s.runState = .halted ∨ s.runState = .faulted

/-- A safe run: no number of steps from the state takes a fault (R201). -/
def State.safe (s : State) : Prop := ∀ n : Nat, (runSteps n s).runState ≠ .faulted

end Sys2Proof.Machine
end

