-- ==== Sys2Proof/Certificates/Slice0/Obligations.lean ====
section
/-! DEFINITION. The statements for the provers. Each docstring names the rule of spec/ it formalises. -/

open Sys2Proof Sys2Proof.Machine

/-! ### Encoding (spec/30_encoding.md) -/

/-- R71, R72, R73, R75, R78: under every injective opcode map, decoding the words of any instruction, with
any words after them, gives the instruction back with every operand, and leaves the words after it. -/
def Obligations.DecodeOfEncode : Prop :=
  ∀ (c : OpcodeMap) (i : Instr) (rest : List Word), c.wellFormed = true →
    decode c (encode c i ++ rest) = .ok i rest

/-- R71, R72, R75, R78: words that decode to an instruction are its encoding, followed by the rest. -/
def Obligations.EncodeOfDecode : Prop :=
  ∀ (c : OpcodeMap) (ws rest : List Word) (i : Instr), decode c ws = .ok i rest → ws = encode c i ++ rest

/-- R73, R74: the default opcode values in the order of the table are 0 to 17, the arities are those of R73,
and the default map is injective. -/
def Obligations.DefaultOpcodeTable : Prop :=
  Mnemonic.all.map OpcodeMap.default.of = [0, 1, 2, 3, 4, 5, 6, 7, 8, 9, 10, 11, 12, 13, 14, 15, 16, 17] ∧
  Mnemonic.all.map Mnemonic.arity = [0, 0, 0, 0, 0, 0, 1, 1, 1, 1, 1, 1, 1, 1, 0, 0, 2, 0] ∧
  OpcodeMap.default.wellFormed = true

/-- R75: under an injective map, a word at an opcode position decodes to a mnemonic exactly when it is the
mnemonic's whole value. -/
def Obligations.OpcodeWordSelectsMnemonic : Prop :=
  ∀ (c : OpcodeMap) (w : Word) (m : Mnemonic), c.wellFormed = true → (c.mnemonic? w = some m ↔ w = c.of m)

/-- R76: a word is illegal at an opcode position exactly when it is the value of no mnemonic, under the default
map when it is below 0 or above 17. R206: a step that fetches one as an opcode takes INVALID_OPCODE, with
FAULT_PC = pc0, FAULT_VALUE the word and ip = pc0 + 1, and no instruction is executed after it. The last clause
counts steps after the end of the run: that each of them answers the unchanged state is the model's choice (A10). -/
def Obligations.IllegalOpcodeFaults : Prop :=
  (∀ (c : OpcodeMap) (w : Word), c.mnemonic? w = none ↔ ∀ m : Mnemonic, w ≠ c.of m) ∧
  (∀ w : Word, OpcodeMap.default.mnemonic? w = none ↔ w.toInt < 0 ∨ 17 < w.toInt) ∧
  ∀ s : State, s.runState = .running → s.inProgram s.ip.toInt →
    (∀ m : Mnemonic, s.progWord s.ip.toInt ≠ s.cfg.opcodes.of m) →
    ∃ t, step s = .next t ∧ t.ip.toInt = s.ip.toInt + 1 ∧
      t = { s with
        ip := t.ip, faultCause := .invalidOpcode, faultPc := s.ip, faultValue := s.progWord s.ip.toInt,
        runState := .faulted } ∧
      ∀ n : Nat, runSteps n t = t

/-- R71, R74: words written out from the table of each format decode to their instruction (a sanity check):
IADD, BRT 7, LOAD -3, PRINT and CALL 0, 1. -/
def Obligations.SpelledWordsDecode : Prop :=
  decode OpcodeMap.default [0x00000001#32] = .ok .iadd [] ∧
  decode OpcodeMap.default [0x00000007#32, 0x00000007#32] = .ok (.brt 7) [] ∧
  decode OpcodeMap.default [0x0000000A#32, 0xFFFFFFFD#32] = .ok (.load (-3)) [] ∧
  decode OpcodeMap.default [0x0000000E#32] = .ok .print [] ∧
  decode OpcodeMap.default [0x00000010#32, 0x00000000#32, 0x00000001#32] = .ok (.call 0 1) []

/-! ### The step (spec/30_encoding.md R80 to R82, spec/60_exceptions.md) -/

/-- R80: in RUNNING, when the words at ip decode to an instruction, the step is that instruction's meaning at
this state, and nothing around it. -/
def Obligations.StepRunsDecodedInstruction : Prop :=
  ∀ (s : State) (i : Instr), s.runState = .running → s.cfg.opcodes.wellFormed = true →
    s.hasAtIp (encode s.cfg.opcodes i) → step s = exec i s

/-- R80 and the fetch part of R203, every case of a step in RUNNING in the order of the checks: the opcode
address outside the program, an opcode word that names nothing, an operand address outside the program (the
first one), and execution. -/
def Obligations.StepFollowsDispatchAlgorithm : Prop :=
  ∀ s : State, s.runState = .running →
    (¬ s.inProgram s.ip.toInt → TakesFault (step s) s .fetchOutOfRange s.ip) ∧
    (s.inProgram s.ip.toInt → s.cfg.opcodes.mnemonic? (s.progWord s.ip.toInt) = none →
      step s = .next { s with
        ip := wrapW (s.ip.toInt + 1), faultCause := .invalidOpcode, faultPc := s.ip,
        faultValue := s.progWord s.ip.toInt, runState := .faulted }) ∧
    ∀ m : Mnemonic, s.inProgram s.ip.toInt → s.cfg.opcodes.mnemonic? (s.progWord s.ip.toInt) = some m →
      (∀ j : Nat, 1 ≤ j → j ≤ m.arity → (∀ k : Nat, 1 ≤ k → k < j → s.inProgram (s.ip.toInt + k)) →
        ¬ s.inProgram (s.ip.toInt + j) → TakesFault (step s) s .fetchOutOfRange (wrapW (s.ip.toInt + j))) ∧
      ∀ i : Instr, i.mnemonic = m →
        (∀ j : Nat, 1 ≤ j → j ≤ m.arity →
          s.inProgram (s.ip.toInt + j) ∧ i.operands[j - 1]? = some (s.progWord (s.ip.toInt + j))) →
        step s = exec i s

/-- R80 (a step is taken only in RUNNING), R208 (no instruction runs in FAULTED). That the model answers with
the unchanged state is its choice (A10). -/
def Obligations.NoInstructionOutsideRunning : Prop :=
  ∀ s : State, s.runState ≠ .running → step s = .next s ∧ ∀ n : Nat, runSteps n s = s

/-- R81, R201 (no other condition faults) with A11: from every state a step answers a next state. -/
def Obligations.StepAlwaysAnswersNext : Prop := ∀ s : State, ∃ t, step s = .next t

/-- R82: a step of a RUNNING core leaves it RUNNING, or is a HALT that leaves it HALTED, or takes a fault. -/
def Obligations.RunStopsOnlyByHaltOrFault : Prop :=
  ∀ s t : State, s.runState = .running → step s = .next t →
    (t.runState = .running ∧ fetch s ≠ .instr .halt) ∨ (t.runState = .halted ∧ fetch s = .instr .halt) ∨
    (t.runState = .faulted ∧ fetch s ≠ .instr .halt ∧ t.faultCause ≠ .none ∧ t.faultPc = s.ip)

/-- R202: after a fault everything is as it was when the instruction began, but for the fault registers and
RUN_STATE; ip is pc0, and pc0 + 1 after INVALID_OPCODE (R206). -/
def Obligations.FaultsArePrecise : Prop :=
  ∀ s t : State, s.runState = .running → step s = .next t → t.runState = .faulted →
    t = { s with
      ip := if t.faultCause = .invalidOpcode then wrapW (s.ip.toInt + 1) else s.ip
      faultCause := t.faultCause, faultPc := s.ip, faultValue := t.faultValue, runState := .faulted }

/-- R63, with R25, R26 and R31 for the configuration: no step writes the program, its length, START_IP,
NGLOBALS or a parameter, so a word fetched at an address is always the one bound. -/
def Obligations.ProgramNeverWritten : Prop :=
  ∀ s t : State, step s = .next t →
    t.prog = s.prog ∧ t.progLen = s.progLen ∧ t.startIp = s.startIp ∧ t.nglobals = s.nglobals ∧ t.cfg = s.cfg ∧
      ∀ a : Int, t.progWord a = s.progWord a

/-- R30, R65: OUT changes only by a PRINT, which appends the top of stack. -/
def Obligations.OutputOnlyAppendedByPrint : Prop :=
  ∀ s t : State, step s = .next t →
    t.out = s.out ∨ (fetch s = .instr .print ∧ t.out = s.out ++ [s.slot s.sp.toInt])

/-- R185, R24: CALL and RET are the only instructions that write fp. -/
def Obligations.FramePointerWrittenOnlyByCallAndRet : Prop :=
  ∀ s t : State, s.runState = .running → step s = .next t → t.fp ≠ s.fp →
    (∃ target argc, fetch s = .instr (.call target argc)) ∨ fetch s = .instr .ret

/-- R26: G is written only by GSTORE, and only the slot its operand names. -/
def Obligations.GlobalsWrittenOnlyByGstore : Prop :=
  ∀ (s t : State) (k : Nat), s.runState = .running → step s = .next t → t.global k ≠ s.global k →
    ∃ index : Word, fetch s = .instr (.gstore index) ∧ index.toInt = k ∧ t.global k = s.slot s.sp.toInt

/-- R22: ip never wraps: where an instruction is fetched in a state of the invariant, the address after it is
at most PROG_LEN, and `next` is that address exactly. -/
def Obligations.NextAddressNeverWraps : Prop :=
  ∀ (s : State) (i : Instr), s.Inv → s.runState = .running → fetch s = .instr i →
    0 ≤ s.ip.toInt ∧ s.ip.toInt + 1 + i.mnemonic.arity ≤ s.progLen.toInt ∧
      (s.nextIp i.mnemonic.arity).toInt = s.ip.toInt + 1 + i.mnemonic.arity

/-! ### Invariants -/

/-- The invariant holds at power-on. The values of the unspecified registers there are the model's (A4). -/
def Obligations.ResetMeetsInvariant : Prop := State.reset.Inv

/-- R23, R26, R27, R28, R231 with A6: every step keeps the invariant: sp in its range, exactly the live
window's slots holding specified values, register files canonical, globals within NGLOBALS, parameters
legal, PROG_LEN the program's length, a cause recorded exactly in FAULTED. -/
def Obligations.StepKeepsInvariant : Prop := ∀ s t : State, s.Inv → step s = .next t → t.Inv

/-- R230 to R236: every host request keeps the invariant, whatever CORE replies. -/
def Obligations.HostRequestsKeepInvariant : Prop :=
  ∀ (s : State) (req : HostRequest), s.Inv → (serve req s).2.Inv

/-- R27: no instruction reads a dead slot: from two states that differ only in the slots above sp, a step
leads to two states that differ only so. -/
def Obligations.DeadSlotsNeverMatter : Prop :=
  ∀ s t s' t' : State, s.SameLive t → step s = .next s' → step t = .next t' → s'.SameLive t'

/-! ### Instructions (spec/40_system.md to spec/44_procedure.md): completion, result, frame and faults -/

/-- R100. -/
def Obligations.HaltRule : Prop :=
  encode OpcodeMap.default .halt = [0] ∧
  ∀ s : State, exec .halt s = .next { s with ip := wrapW (s.ip.toInt + 1), runState := .halted }

/-- R101. -/
def Obligations.PrintRule : Prop :=
  encode OpcodeMap.default .print = [14] ∧
  ∀ s : State,
    (0 ≤ s.sp.toInt → ∃ t, exec .print s = .next t ∧ t.sp.toInt = s.sp.toInt - 1 ∧
      t.ip = wrapW (s.ip.toInt + 1) ∧
      t = { s with ip := t.ip, sp := t.sp, stack := t.stack, out := s.out ++ [s.slot s.sp.toInt] } ∧
      ∀ i : Nat, (i : Int) < s.sp.toInt → t.slot i = s.slot i) ∧
    (s.sp.toInt < 0 → TakesFault (exec .print s) s .stackUnderflow s.sp)

/-- R121, R122, R123: with a under b on the stack, the result is the exact sum, difference or product wrapped
modulo 2^32, and replaces both. -/
def Obligations.ArithmeticRule : Prop :=
  encode OpcodeMap.default .iadd = [1] ∧ encode OpcodeMap.default .isub = [2] ∧
  encode OpcodeMap.default .imul = [3] ∧
  ∀ (s : State) (i : Instr) (op : Int → Int → Int),
    (i = .iadd ∧ op = fun a b => a + b) ∨ (i = .isub ∧ op = fun a b => a - b) ∨
      (i = .imul ∧ op = fun a b => a * b) →
    (1 ≤ s.sp.toInt → ∃ t, exec i s = .next t ∧ t.sp.toInt = s.sp.toInt - 1 ∧
      t.slot (s.sp.toInt - 1) =
        wrapW (op (s.slot (s.sp.toInt - 1)).toInt (s.slot s.sp.toInt).toInt) ∧
      t.ip = wrapW (s.ip.toInt + 1) ∧ ChangesOnlyStackFrom s t (s.sp.toInt - 1)) ∧
    (s.sp.toInt < 1 → TakesFault (exec i s) s .stackUnderflow s.sp)

/-- R124, R125: with a under b on the stack, ILT leaves 1 if a < b as signed integers and IEQ 1 if a = b, and
0 otherwise. -/
def Obligations.ComparisonRule : Prop :=
  encode OpcodeMap.default .ilt = [4] ∧ encode OpcodeMap.default .ieq = [5] ∧
  ∀ (s : State) (i : Instr) (holds : Int → Int → Prop),
    (i = .ilt ∧ holds = fun a b => a < b) ∨ (i = .ieq ∧ holds = fun a b => a = b) →
    (1 ≤ s.sp.toInt → ∃ t, exec i s = .next t ∧ t.sp.toInt = s.sp.toInt - 1 ∧
      (holds (s.slot (s.sp.toInt - 1)).toInt (s.slot s.sp.toInt).toInt → t.slot (s.sp.toInt - 1) = 1) ∧
      (¬ holds (s.slot (s.sp.toInt - 1)).toInt (s.slot s.sp.toInt).toInt → t.slot (s.sp.toInt - 1) = 0) ∧
      t.ip = wrapW (s.ip.toInt + 1) ∧ ChangesOnlyStackFrom s t (s.sp.toInt - 1)) ∧
    (s.sp.toInt < 1 → TakesFault (exec i s) s .stackUnderflow s.sp)

/-- R141. -/
def Obligations.BranchRule : Prop :=
  ∀ target : Word, encode OpcodeMap.default (.br target) = [6, target] ∧
    ∀ s : State, exec (.br target) s = .next { s with ip := target }

/-- R142, R143, R144: BRT jumps exactly when the popped word is 1, BRF exactly when it is 0; both pop one word
whatever it is. -/
def Obligations.ConditionalBranchRule : Prop :=
  ∀ target : Word,
    encode OpcodeMap.default (.brt target) = [7, target] ∧
    encode OpcodeMap.default (.brf target) = [8, target] ∧
    ∀ (s : State) (i : Instr) (jumpsOn : Int),
      (i = .brt target ∧ jumpsOn = 1) ∨ (i = .brf target ∧ jumpsOn = 0) →
      (0 ≤ s.sp.toInt → ∃ t, exec i s = .next t ∧ t.sp.toInt = s.sp.toInt - 1 ∧
        ((s.slot s.sp.toInt).toInt = jumpsOn → t.ip = target) ∧
        ((s.slot s.sp.toInt).toInt ≠ jumpsOn → t.ip = wrapW (s.ip.toInt + 2)) ∧
        ChangesOnlyStackFrom s t s.sp.toInt) ∧
      (s.sp.toInt < 0 → TakesFault (exec i s) s .stackUnderflow s.sp)

/-- R161. -/
def Obligations.IconstRule : Prop :=
  ∀ value : Word, encode OpcodeMap.default (.iconst value) = [9, value] ∧
    ∀ s : State,
      (s.sp.toInt + 1 ≤ s.cfg.stackCap.toInt - 1 → ∃ t, exec (.iconst value) s = .next t ∧
        t.sp.toInt = s.sp.toInt + 1 ∧ t.slot (s.sp.toInt + 1) = value ∧ t.ip = wrapW (s.ip.toInt + 2) ∧
        ChangesOnlyStackFrom s t (s.sp.toInt + 1)) ∧
      (s.cfg.stackCap.toInt - 1 < s.sp.toInt + 1 →
        TakesFault (exec (.iconst value) s) s .stackOverflow s.sp)

/-- R162, R160: the slot is fp + A on unbounded integers and must be live; checked before the push. -/
def Obligations.LoadRule : Prop :=
  ∀ offset : Word, encode OpcodeMap.default (.load offset) = [10, offset] ∧
    ∀ s : State,
      (0 ≤ s.fp.toInt + offset.toInt → s.fp.toInt + offset.toInt ≤ s.sp.toInt →
        (s.sp.toInt + 1 ≤ s.cfg.stackCap.toInt - 1 → ∃ t, exec (.load offset) s = .next t ∧
          t.sp.toInt = s.sp.toInt + 1 ∧ t.slot (s.sp.toInt + 1) = s.slot (s.fp.toInt + offset.toInt) ∧
          t.ip = wrapW (s.ip.toInt + 2) ∧ ChangesOnlyStackFrom s t (s.sp.toInt + 1)) ∧
        (s.cfg.stackCap.toInt - 1 < s.sp.toInt + 1 →
          TakesFault (exec (.load offset) s) s .stackOverflow s.sp)) ∧
      (s.fp.toInt + offset.toInt < 0 ∨ s.sp.toInt < s.fp.toInt + offset.toInt →
        TakesFault (exec (.load offset) s) s .invalidFrameOffset offset)

/-- R163: the index is checked before the push. -/
def Obligations.GloadRule : Prop :=
  ∀ index : Word, encode OpcodeMap.default (.gload index) = [11, index] ∧
    ∀ s : State,
      (0 ≤ index.toInt → index.toInt ≤ s.nglobals.toInt - 1 →
        (s.sp.toInt + 1 ≤ s.cfg.stackCap.toInt - 1 → ∃ t, exec (.gload index) s = .next t ∧
          t.sp.toInt = s.sp.toInt + 1 ∧ t.slot (s.sp.toInt + 1) = s.global index.toInt ∧
          t.ip = wrapW (s.ip.toInt + 2) ∧ ChangesOnlyStackFrom s t (s.sp.toInt + 1)) ∧
        (s.cfg.stackCap.toInt - 1 < s.sp.toInt + 1 →
          TakesFault (exec (.gload index) s) s .stackOverflow s.sp)) ∧
      (index.toInt < 0 ∨ s.nglobals.toInt - 1 < index.toInt →
        TakesFault (exec (.gload index) s) s .invalidGlobalIndex index)

/-- R164, R160: STORE pops into the slot fp + A, which must be live after the pop; the pop is checked first. -/
def Obligations.StoreRule : Prop :=
  ∀ offset : Word, encode OpcodeMap.default (.store offset) = [12, offset] ∧
    ∀ s : State,
      (s.sp.toInt < 0 → TakesFault (exec (.store offset) s) s .stackUnderflow s.sp) ∧
      (0 ≤ s.sp.toInt →
        (0 ≤ s.fp.toInt + offset.toInt → s.fp.toInt + offset.toInt ≤ s.sp.toInt - 1 →
          ∃ t, exec (.store offset) s = .next t ∧ t.sp.toInt = s.sp.toInt - 1 ∧
            t.slot (s.fp.toInt + offset.toInt) = s.slot s.sp.toInt ∧ t.ip = wrapW (s.ip.toInt + 2) ∧
            t = { s with ip := t.ip, sp := t.sp, stack := t.stack } ∧
            ∀ i : Nat, (i : Int) < s.sp.toInt → (i : Int) ≠ s.fp.toInt + offset.toInt → t.slot i = s.slot i) ∧
        (s.fp.toInt + offset.toInt < 0 ∨ s.sp.toInt - 1 < s.fp.toInt + offset.toInt →
          TakesFault (exec (.store offset) s) s .invalidFrameOffset offset))

/-- R165: the pop is checked before the index. -/
def Obligations.GstoreRule : Prop :=
  ∀ index : Word, encode OpcodeMap.default (.gstore index) = [13, index] ∧
    ∀ s : State,
      (s.sp.toInt < 0 → TakesFault (exec (.gstore index) s) s .stackUnderflow s.sp) ∧
      (0 ≤ s.sp.toInt →
        (0 ≤ index.toInt → index.toInt ≤ s.nglobals.toInt - 1 →
          ∃ t, exec (.gstore index) s = .next t ∧ t.sp.toInt = s.sp.toInt - 1 ∧
            t.global index.toInt = s.slot s.sp.toInt ∧ t.ip = wrapW (s.ip.toInt + 2) ∧
            t = { s with ip := t.ip, sp := t.sp, stack := t.stack, globals := t.globals } ∧
            (∀ k : Nat, (k : Int) ≠ index.toInt → t.global k = s.global k) ∧
            ∀ i : Nat, (i : Int) < s.sp.toInt → t.slot i = s.slot i) ∧
        (index.toInt < 0 ∨ s.nglobals.toInt - 1 < index.toInt →
          TakesFault (exec (.gstore index) s) s .invalidGlobalIndex index))

/-- R166. -/
def Obligations.PopRule : Prop :=
  encode OpcodeMap.default .pop = [15] ∧
  ∀ s : State,
    (0 ≤ s.sp.toInt → ∃ t, exec .pop s = .next t ∧ t.sp.toInt = s.sp.toInt - 1 ∧
      t.ip = wrapW (s.ip.toInt + 1) ∧ ChangesOnlyStackFrom s t s.sp.toInt) ∧
    (s.sp.toInt < 0 → TakesFault (exec .pop s) s .stackUnderflow s.sp)

/-- R181, from a state with sp in its range (R23): three words pushed, fp on the saved-ip slot, ip at the
target; neither the target nor n is checked. -/
def Obligations.CallRule : Prop :=
  ∀ target argc : Word, encode OpcodeMap.default (.call target argc) = [16, target, argc] ∧
    ∀ s : State, -1 ≤ s.sp.toInt →
      (s.sp.toInt + 3 ≤ s.cfg.stackCap.toInt - 1 → ∃ t, exec (.call target argc) s = .next t ∧
        t.sp.toInt = s.sp.toInt + 3 ∧ t.fp.toInt = s.sp.toInt + 3 ∧ t.ip = target ∧
        t.slot (s.sp.toInt + 1) = argc ∧ t.slot (s.sp.toInt + 2) = s.fp ∧
        t.slot (s.sp.toInt + 3) = wrapW (s.ip.toInt + 3) ∧
        t = { s with ip := t.ip, sp := t.sp, fp := t.fp, stack := t.stack } ∧
        ∀ i : Nat, (i : Int) ≤ s.sp.toInt → t.slot i = s.slot i) ∧
      (s.cfg.stackCap.toInt - 1 < s.sp.toInt + 3 →
        TakesFault (exec (.call target argc) s) s .stackOverflow s.sp)

/-- R182: the five checks in their order, then the unwinding: sp = fp - 2 - n with the returned word there, ip
and fp from the frame's words, which may have been changed. -/
def Obligations.RetRule : Prop :=
  encode OpcodeMap.default .ret = [17] ∧
  ∀ s : State,
    (s.sp.toInt < 0 → TakesFault (exec .ret s) s .stackUnderflow s.sp) ∧
    (0 ≤ s.sp.toInt → s.fp.toInt < 2 → TakesFault (exec .ret s) s .stackUnderflow s.fp) ∧
    (0 ≤ s.sp.toInt → 2 ≤ s.fp.toInt → s.sp.toInt - 1 < s.fp.toInt →
      TakesFault (exec .ret s) s .invalidFrameOffset s.fp) ∧
    ∀ n : Word, n = s.slot (s.fp.toInt - 2) → 2 ≤ s.fp.toInt → s.fp.toInt ≤ s.sp.toInt - 1 →
      (n.toInt < 0 → TakesFault (exec .ret s) s .invalidArgCount n) ∧
      (0 ≤ n.toInt → s.fp.toInt - 2 < n.toInt → TakesFault (exec .ret s) s .stackUnderflow n) ∧
      (0 ≤ n.toInt → n.toInt ≤ s.fp.toInt - 2 → ∃ t, exec .ret s = .next t ∧
        t.sp.toInt = s.fp.toInt - 2 - n.toInt ∧ t.slot (s.fp.toInt - 2 - n.toInt) = s.slot s.sp.toInt ∧
        t.ip = s.slot s.fp.toInt ∧ t.fp = s.slot (s.fp.toInt - 1) ∧
        t = { s with ip := t.ip, sp := t.sp, fp := t.fp, stack := t.stack } ∧
        ∀ i : Nat, (i : Int) < s.fp.toInt - 2 - n.toInt → t.slot i = s.slot i)

/-- R180: after a CALL with n arguments on the stack, the k-th last of them is at offset -(2 + k) from the new
fp, the count at -2, the caller's fp at -1 and the return address at 0. -/
def Obligations.CallFrameLayout : Prop :=
  ∀ (s t : State) (target argc : Word), s.Inv → s.runState = .running → 0 ≤ argc.toInt →
    argc.toInt ≤ s.sp.toInt + 1 → s.sp.toInt + 3 ≤ s.cfg.stackCap.toInt - 1 →
    exec (.call target argc) s = .next t →
    (∀ k : Nat, 1 ≤ k → (k : Int) ≤ argc.toInt →
      t.slot (t.fp.toInt - (2 + k)) = s.slot (s.sp.toInt - k + 1)) ∧
    t.slot (t.fp.toInt - 2) = argc ∧ t.slot (t.fp.toInt - 1) = s.fp ∧
    t.slot t.fp.toInt = wrapW (s.ip.toInt + 3)

/-- R183: `s` is the caller with its n argument words pushed on a stack of depth `sp0`, `t` the state after the
CALL, `u` any state at the callee's RET with fp as CALL left it, the three link slots unchanged and a word
above fp. The RET leaves sp = sp0 + 1, the returned word on top, the caller's fp, the return address in ip
and the caller's slots as the callee left them; the depth has changed by -(n - 1). -/
def Obligations.CallRetRoundTrip : Prop :=
  ∀ (s t u : State) (target argc : Word) (sp0 : Int), 0 ≤ argc.toInt → -1 ≤ sp0 →
    s.sp.toInt = sp0 + argc.toInt → s.sp.toInt + 3 ≤ s.cfg.stackCap.toInt - 1 →
    exec (.call target argc) s = .next t →
    u.fp = t.fp → u.fp.toInt + 1 ≤ u.sp.toInt →
    (∀ j : Int, t.fp.toInt - 2 ≤ j → j ≤ t.fp.toInt → u.slot j = t.slot j) →
    ∃ v, exec .ret u = .next v ∧ v.sp.toInt = sp0 + 1 ∧ v.sp.toInt = s.sp.toInt - (argc.toInt - 1) ∧
      v.slot v.sp.toInt = u.slot u.sp.toInt ∧ v.fp = s.fp ∧ v.ip = wrapW (s.ip.toInt + 3) ∧
      ∀ i : Nat, (i : Int) ≤ sp0 → v.slot i = u.slot i

/-- The round-trip property of R165: a GLOAD k after a GSTORE k pushes the stored word, for every index in
range. -/
def Obligations.GstoreThenGload : Prop :=
  ∀ (s : State) (k : Word), s.Inv → s.runState = .running → 0 ≤ s.sp.toInt → 0 ≤ k.toInt →
    k.toInt ≤ s.nglobals.toInt - 1 →
    ∃ t u, exec (.gstore k) s = .next t ∧ exec (.gload k) t = .next u ∧ u.sp = s.sp ∧
      u.slot u.sp.toInt = s.slot s.sp.toInt ∧ u.global k.toInt = s.slot s.sp.toInt

/-- R82, R141: a RUNNING core at a BR to its own address runs for ever: no number of steps changes its state,
so the run is safe and never ends. -/
def Obligations.SelfBranchRunsForever : Prop :=
  ∀ s : State, s.runState = .running → s.cfg.opcodes.wellFormed = true →
    s.hasAtIp (encode s.cfg.opcodes (.br s.ip)) →
    (∀ n : Nat, runSteps n s = s) ∧ s.safe ∧ ∀ n : Nat, ¬ (runSteps n s).ended

/-! ### Words, register files and text -/

/-- The `wrap_W` row of R11: the unique y in the range of a word congruent to x modulo 2^32. -/
def Obligations.WrapIsTheResidueInRange : Prop :=
  ∀ x y : Int, (-2147483648 ≤ y ∧ y ≤ 2147483647 ∧ (y - x) % 4294967296 = 0) ↔ y = (wrapW x).toInt

/-- R56: a write to S or G has no effect beyond the slot written, and a read after it gives the word written:
every other slot of its file, the other file, ip, sp, fp, OUT and every other register stay as they are. -/
def Obligations.WritesTouchOneSlot : Prop :=
  ∀ (s : State) (v : Word) (i j : Nat),
    (s.setSlot i v).slot j = (if j = i then v else s.slot j) ∧
    (s.setGlobal i v).global j = (if j = i then v else s.global j) ∧
    s.setSlot i v = { s with stack := (s.setSlot i v).stack } ∧
    s.setGlobal i v = { s with globals := (s.setGlobal i v).globals }

/-- A6: canonical globals that read alike at every index are equal. The form is the model's (A6); that
nothing but the words read can be observed is R56's. -/
def Obligations.EqualReadsGiveEqualGlobals : Prop :=
  ∀ m n : Memory, Memory.wf m → Memory.wf n → (∀ k : Nat, Memory.readZero m k = Memory.readZero n k) → m = n

/-- R102: the text of a word is a minus sign if it is negative, then the decimal digits of its magnitude with
no leading zero, then a newline; the text of OUT is that of its words in order. -/
def Obligations.DecimalText : Prop :=
  (∀ v : Word, ∃ digits : List (BitVec 8), digits ≠ [] ∧
    renderWord v = (if v.toInt < 0 then [0x2D] else []) ++ digits ++ [0x0A] ∧
    (∀ d ∈ digits, 0x30 ≤ d.toNat ∧ d.toNat ≤ 0x39) ∧
    digits.foldl (fun n d => 10 * n + (d.toNat - 0x30)) 0 = v.toInt.natAbs ∧
    (digits.head? = some 0x30 → digits = [0x30])) ∧
  renderOut [] = [] ∧ ∀ (v : Word) (out : List Word), renderOut (v :: out) = renderWord v ++ renderOut out

/-! ### The host's side (spec/70_reset_and_hazards.md, spec/10_state.md R31) -/

/-- R237: power-on leaves CORE UNBOUND; the other values of `State.reset` are the model's (A2, A4). -/
def Obligations.PowerOnIsUnbound : Prop := State.reset.runState = .unbound

/-- R231 and R35: Initialise in UNBOUND binds the program and writes the state of R35, or fails exactly on the
three conditions; anywhere else it is refused. -/
def Obligations.InitialiseRule : Prop :=
  ∀ (s : State) (program : List Word) (startIp : Word) (count : Int),
    (s.runState ≠ .unbound → serve (.initialise program startIp count) s = (.refused, s)) ∧
    (s.runState = .unbound →
      (count < 0 ∨ s.cfg.globalsMax.toInt < count ∨ (2147483647 : Int) < program.length →
        serve (.initialise program startIp count) s = (.allocFailure, s)) ∧
      (0 ≤ count → count ≤ s.cfg.globalsMax.toInt → (program.length : Int) ≤ 2147483647 →
        ∃ t, serve (.initialise program startIp count) s = (.done, t) ∧
          t.ip = startIp ∧ t.sp.toInt = -1 ∧ t.fp.toInt = -1 ∧ (∀ k : Nat, t.global k = 0) ∧ t.out = [] ∧
          t.runState = .ready ∧ t.faultCause = .none ∧ t.faultPc = 0 ∧ t.faultValue = 0 ∧
          t.prog = program ∧ t.progLen.toInt = program.length ∧ t.startIp = startIp ∧
          t.nglobals.toInt = count ∧ t.cfg = s.cfg))

/-- R230: the lifecycle table: Initialise, Run and Dispose move CORE as it says, every other pair of a state and
one of them is refused and changes nothing, Inspect never moves it, and a step moves it only from RUNNING, to
HALTED or FAULTED. -/
def Obligations.LifecycleTable : Prop :=
  (∀ s t : State, step s = .next t → t.runState = s.runState ∨
    (s.runState = .running ∧ (t.runState = .halted ∨ t.runState = .faulted))) ∧
  ∀ s : State,
    (∀ (p : List Word) (a : Word) (k : Int),
      (s.runState = .unbound →
        ((serve (.initialise p a k) s).1 = .done ∧ (serve (.initialise p a k) s).2.runState = .ready) ∨
        ((serve (.initialise p a k) s).1 = .allocFailure ∧ (serve (.initialise p a k) s).2 = s)) ∧
      (s.runState ≠ .unbound → serve (.initialise p a k) s = (.refused, s))) ∧
    (s.runState = .ready → serve .run s = (.done, { s with runState := .running })) ∧
    (s.runState ≠ .ready → serve .run s = (.refused, s)) ∧
    (s.runState = .ready ∨ s.runState = .halted ∨ s.runState = .faulted →
      (serve .dispose s).1 = .done ∧ (serve .dispose s).2.runState = .unbound ∧
        (serve .dispose s).2.cfg = s.cfg) ∧
    (s.runState = .unbound ∨ s.runState = .running → serve .dispose s = (.refused, s)) ∧
    ∀ (r : HostReg) (k : Nat), (serve .inspect s).2.runState = s.runState ∧
      (serve (.readRegister r) s).2.runState = s.runState ∧
      (serve (.readGlobal k) s).2.runState = s.runState ∧ (serve (.readSlot k) s).2.runState = s.runState

/-- R235, R31: in READY, HALTED and FAULTED, Inspect shows the eleven registers by number, the globals, the live
stack and OUT, and changes nothing; in UNBOUND and RUNNING it is refused, but RUN_STATE is always readable.
That Inspect comes whole or in pieces (one register, global or slot) and that a place which does not exist is
answered noSuchPlace are the model's choices (A13). The word of a dead slot is free: nothing is said of it but
that reading it changes only the model's count of draws (A8). -/
def Obligations.InspectRule : Prop :=
  ∀ s : State,
    (s.runState = .ready ∨ s.runState = .halted ∨ s.runState = .faulted →
      ∃ v : Snapshot, serve .inspect s = (.snapshot v, s) ∧
        v.registers = [s.ip, s.sp, s.fp, runStateCode s.runState, causeCode s.faultCause, s.faultPc,
          s.faultValue, s.progLen, s.startIp, s.nglobals, s.cfg.stackCap] ∧
        (∀ k : Nat, (k : Int) < s.nglobals.toInt → v.globals[k]? = some (s.global k)) ∧
        v.globals.length = s.nglobals.toInt.toNat ∧
        (∀ i : Nat, (i : Int) ≤ s.sp.toInt → v.liveStack[i]? = some (s.slot i)) ∧
        v.liveStack.length = (s.sp.toInt + 1).toNat ∧ v.out = s.out) ∧
    (s.runState = .ready ∨ s.runState = .halted ∨ s.runState = .faulted →
      (∀ r : HostReg, serve (.readRegister r) s = (.word (s.register r), s)) ∧
      (∀ k : Nat, (k : Int) < s.nglobals.toInt → serve (.readGlobal k) s = (.word (s.global k), s)) ∧
      (∀ k : Nat, s.nglobals.toInt ≤ k → serve (.readGlobal k) s = (.noSuchPlace, s)) ∧
      (∀ i : Nat, (i : Int) ≤ s.sp.toInt → serve (.readSlot i) s = (.word (s.slot i), s)) ∧
      (∀ i : Nat, s.sp.toInt < i → (i : Int) < s.cfg.stackCap.toInt →
        ∃ w : Word, serve (.readSlot i) s = (.word w, { s with draws := s.draws + 1 })) ∧
      ∀ i : Nat, s.sp.toInt < i → s.cfg.stackCap.toInt ≤ i → serve (.readSlot i) s = (.noSuchPlace, s)) ∧
    HostReg.all.map s.register = [s.ip, s.sp, s.fp, runStateCode s.runState, causeCode s.faultCause, s.faultPc,
      s.faultValue, s.progLen, s.startIp, s.nglobals, s.cfg.stackCap] ∧
    (s.runState = .unbound ∨ s.runState = .running →
      serve .inspect s = (.refused, s) ∧
      (∀ r : HostReg, r ≠ .runState → serve (.readRegister r) s = (.refused, s)) ∧
      ∀ k : Nat, serve (.readGlobal k) s = (.refused, s) ∧ serve (.readSlot k) s = (.refused, s)) ∧
    serve (.readRegister .runState) s = (.word (runStateCode s.runState), s)

/-- R236: Initialise outside UNBOUND, Run outside READY, Dispose in UNBOUND or RUNNING, and Inspect there (but of
RUN_STATE, R235) are refused, and a refused request changes no state. -/
def Obligations.RefusedRequests : Prop :=
  (∀ (s : State) (req : HostRequest), (serve req s).1 = .refused → (serve req s).2 = s) ∧
  ∀ s : State,
    (s.runState ≠ .unbound →
      ∀ (p : List Word) (a : Word) (k : Int), (serve (.initialise p a k) s).1 = .refused) ∧
    (s.runState ≠ .ready → (serve .run s).1 = .refused) ∧
    (s.runState = .unbound ∨ s.runState = .running →
      (serve .dispose s).1 = .refused ∧ (serve .inspect s).1 = .refused ∧
      (∀ r : HostReg, r ≠ .runState → (serve (.readRegister r) s).1 = .refused) ∧
      ∀ k : Nat, (serve (.readGlobal k) s).1 = .refused ∧ (serve (.readSlot k) s).1 = .refused)

/-- R237: no rule reads what is unspecified in UNBOUND: two UNBOUND cores with the same parameters give every
request the same reply, and a successful Initialise leaves them in the same state, but for the model's count
of draws (A8). -/
def Obligations.UnboundRegistersNeverRead : Prop :=
  ∀ (s t : State) (req : HostRequest), s.runState = .unbound → t.runState = .unbound → s.cfg = t.cfg →
    (serve req s).1 = (serve req t).1 ∧
    ((serve req s).1 = .done → { (serve req s).2 with draws := 0 } = { (serve req t).2 with draws := 0 })

/-- The codes of R31 and R201 and the register numbers of R31. -/
def Obligations.HostCodes : Prop :=
  [RunState.unbound, .ready, .running, .halted, .faulted].map runStateCode = [0, 1, 2, 3, 4] ∧
  [Cause.none, .invalidOpcode, .stackOverflow, .stackUnderflow, .invalidGlobalIndex, .invalidFrameOffset,
    .fetchOutOfRange, .invalidArgCount].map causeCode = [0, 1, 2, 3, 4, 5, 6, 7] ∧
  HostReg.all.map hostRegNumber = [0, 1, 2, 3, 4, 5, 6, 7, 8, 9, 10]

/-- R240: a run has one result: two numbers of steps after which the run has ended leave the same state. The
larger number counts steps after the end of the run: that each of them answers the unchanged state is the model's
choice (A10). -/
def Obligations.RunResultIsUnique : Prop :=
  ∀ (s : State) (m n : Nat), (runSteps m s).ended → (runSteps n s).ended →
    runSteps m s = runSteps n s ∧ (runSteps m s).result = (runSteps n s).result

/-- Where the model's loader places an instruction of the table, the next step runs it (A12): the step of
`withFetchWord` is the decoded instruction's meaning. -/
def Obligations.PlacedWordIsRun : Prop :=
  ∀ (s : State) (nbits w : Nat) (i : Instr), s.cfg.opcodes = OpcodeMap.default →
    s.prog.length ≤ 2147483647 → decodeTableWord nbits w = some i →
    step (s.withFetchWord nbits w) = exec i (s.withFetchWord nbits w)
end

