-- ==== Sys2Proof/Laws/Memory.lean ====
section
/-! SUPPORT. What reading a register file after each operation gives, and that every operation keeps the
canonical form (A6). -/

namespace Sys2Proof.Machine

@[simp] theorem Memory.read?_nil (a : Nat) : Memory.read? [] a = none := rfl

theorem Memory.read?_cons (k : Nat) (v : Word) (m : Memory) (a : Nat) :
    Memory.read? ((k, v) :: m) a = if k = a then some v else Memory.read? m a := rfl

@[simp] theorem Memory.read?_put_same (m : Memory) (a : Nat) (w : Word) :
    Memory.read? (Memory.put m a w) a = some w := by
  induction m with
  | nil => simp [Memory.put, Memory.read?]
  | cons c m ih =>
    obtain ⟨k, v⟩ := c
    simp only [Memory.put]
    split
    · simp [Memory.read?]
    · split
      · simp [Memory.read?]
      · simp only [Memory.read?, ih]; split <;> simp_all

theorem Memory.read?_put_ne (m : Memory) {a b : Nat} (w : Word) (h : b ≠ a) :
    Memory.read? (Memory.put m a w) b = Memory.read? m b := by
  induction m with
  | nil => simp [Memory.put, Memory.read?, h.symm]
  | cons c m ih =>
    obtain ⟨k, v⟩ := c
    simp only [Memory.put]
    split
    · simp [Memory.read?, h.symm]
    · split
      · subst_vars; simp [Memory.read?, h.symm]
      · simp only [Memory.read?, ih]

theorem Memory.read?_put (m : Memory) (a b : Nat) (w : Word) :
    Memory.read? (Memory.put m a w) b = if b = a then some w else Memory.read? m b := by
  split
  · subst_vars; exact Memory.read?_put_same m _ w
  · exact Memory.read?_put_ne m w ‹_›

theorem Memory.read?_filter (m : Memory) (p : Nat → Bool) (a : Nat) :
    Memory.read? (m.filter fun c => p c.1) a = if p a then Memory.read? m a else none := by
  induction m with
  | nil => simp [Memory.read?]
  | cons c m ih =>
    obtain ⟨k, v⟩ := c
    by_cases hk : p k <;> by_cases ha : k = a
    · subst ha; simp [hk, Memory.read?]
    · simp [hk, Memory.read?, ha, ih]
    · subst ha; simp [hk, ih]
    · simp [hk, Memory.read?, ha, ih]

theorem Memory.read?_keepBelow (m : Memory) (n a : Nat) :
    Memory.read? (Memory.keepBelow m n) a = if a < n then Memory.read? m a else none := by
  simpa [Memory.keepBelow] using Memory.read?_filter m (fun k => decide (k < n)) a

theorem Memory.read?_drop (m : Memory) (a b : Nat) :
    Memory.read? (Memory.drop m a) b = if b = a then none else Memory.read? m b := by
  have h := Memory.read?_filter m (fun k => k != a) b
  by_cases hb : b = a <;> simp_all [Memory.drop]

theorem Memory.readZero_writeZero (m : Memory) (a b : Nat) (w : Word) :
    Memory.readZero (Memory.writeZero m a w) b = if b = a then w else Memory.readZero m b := by
  unfold Memory.readZero Memory.writeZero
  split
  · rw [Memory.read?_drop]; split <;> simp_all
  · rw [Memory.read?_put]; split <;> simp_all

/-- A cell of a file written to is the written cell or a cell from before. -/
theorem Memory.mem_put {m : Memory} {a : Nat} {w : Word} {c : Nat × Word} (h : c ∈ Memory.put m a w) :
    c = (a, w) ∨ c ∈ m := by
  induction m with
  | nil => simpa [Memory.put] using h
  | cons d m ih =>
    obtain ⟨k, v⟩ := d
    simp only [Memory.put] at h
    split at h
    · simpa using h
    · split at h
      · rcases List.mem_cons.mp h with h | h <;> simp [h]
      · rcases List.mem_cons.mp h with h | h
        · simp [h]
        · rcases ih h with h | h <;> simp [h]

theorem Memory.rising_nil : Memory.rising [] := List.Pairwise.nil

theorem Memory.rising_put {m : Memory} (h : Memory.rising m) (a : Nat) (w : Word) :
    Memory.rising (Memory.put m a w) := by
  induction m with
  | nil => simp [Memory.put, Memory.rising]
  | cons d m ih =>
    obtain ⟨k, v⟩ := d
    obtain ⟨hk, hm⟩ := List.pairwise_cons.mp h
    simp only [Memory.put]
    split
    · refine List.pairwise_cons.mpr ⟨fun c hc => ?_, h⟩
      rcases List.mem_cons.mp hc with rfl | hc
      · simpa
      · exact lt_trans ‹a < k› (hk c hc)
    · split
      · subst_vars; exact List.pairwise_cons.mpr ⟨hk, hm⟩
      · refine List.pairwise_cons.mpr ⟨fun c hc => ?_, ih hm⟩
        rcases Memory.mem_put hc with rfl | hc
        · simp; omega
        · exact hk c hc

theorem Memory.rising_keepBelow {m : Memory} (h : Memory.rising m) (n : Nat) :
    Memory.rising (Memory.keepBelow m n) := List.Pairwise.filter _ h

theorem Memory.rising_drop {m : Memory} (h : Memory.rising m) (a : Nat) :
    Memory.rising (Memory.drop m a) := List.Pairwise.filter _ h

theorem Memory.wf_nil : Memory.wf [] := ⟨Memory.rising_nil, by simp⟩

theorem Memory.wf_writeZero {m : Memory} (h : Memory.wf m) (a : Nat) (w : Word) :
    Memory.wf (Memory.writeZero m a w) := by
  unfold Memory.writeZero
  split
  · exact ⟨Memory.rising_drop h.1 a, fun c hc => h.2 c (List.mem_of_mem_filter hc)⟩
  · refine ⟨Memory.rising_put h.1 a w, fun c hc => ?_⟩
    rcases Memory.mem_put hc with rfl | hc
    · assumption
    · exact h.2 c hc

theorem Memory.wf_ofCells (cells : List (Nat × Word)) : Memory.wf (Memory.ofCells cells) := by
  unfold Memory.ofCells
  suffices h : ∀ m : Memory, Memory.wf m →
      Memory.wf (cells.foldl (fun m c => Memory.writeZero m c.1 c.2) m) from h [] Memory.wf_nil
  induction cells with
  | nil => intro m hm; exact hm
  | cons c cells ih => intro m hm; exact ih _ (Memory.wf_writeZero hm c.1 c.2)

theorem State.reset_stack_rising : Memory.rising State.reset.stack := Memory.rising_nil

theorem State.reset_globals_wf : Memory.wf State.reset.globals := Memory.wf_nil

/-- A listed index of a file below which every cell lies is below it. -/
theorem Memory.mem_writeZero {m : Memory} {a : Nat} {w : Word} {c : Nat × Word}
    (h : c ∈ Memory.writeZero m a w) : c = (a, w) ∨ c ∈ m := by
  unfold Memory.writeZero at h
  split at h
  · exact .inr (List.mem_of_mem_filter h)
  · exact Memory.mem_put h

end Sys2Proof.Machine
end

