-- ==== Sys2Proof/Laws/State.lean ====
section
/-! SUPPORT. One lemma per field per update of the state, each true by rfl. -/

namespace Sys2Proof.Machine

@[simp] theorem State.setSlot_ip (i : Int) (v : Word) (s : State) : (State.setSlot i v s).ip = s.ip := rfl
@[simp] theorem State.setSlot_sp (i : Int) (v : Word) (s : State) : (State.setSlot i v s).sp = s.sp := rfl
@[simp] theorem State.setSlot_fp (i : Int) (v : Word) (s : State) : (State.setSlot i v s).fp = s.fp := rfl
@[simp] theorem State.setSlot_stack (i : Int) (v : Word) (s : State) : (State.setSlot i v s).stack = Memory.put s.stack i.toNat v := rfl
@[simp] theorem State.setSlot_globals (i : Int) (v : Word) (s : State) : (State.setSlot i v s).globals = s.globals := rfl
@[simp] theorem State.setSlot_out (i : Int) (v : Word) (s : State) : (State.setSlot i v s).out = s.out := rfl
@[simp] theorem State.setSlot_runState (i : Int) (v : Word) (s : State) : (State.setSlot i v s).runState = s.runState := rfl
@[simp] theorem State.setSlot_faultCause (i : Int) (v : Word) (s : State) : (State.setSlot i v s).faultCause = s.faultCause := rfl
@[simp] theorem State.setSlot_faultPc (i : Int) (v : Word) (s : State) : (State.setSlot i v s).faultPc = s.faultPc := rfl
@[simp] theorem State.setSlot_faultValue (i : Int) (v : Word) (s : State) : (State.setSlot i v s).faultValue = s.faultValue := rfl
@[simp] theorem State.setSlot_prog (i : Int) (v : Word) (s : State) : (State.setSlot i v s).prog = s.prog := rfl
@[simp] theorem State.setSlot_progLen (i : Int) (v : Word) (s : State) : (State.setSlot i v s).progLen = s.progLen := rfl
@[simp] theorem State.setSlot_startIp (i : Int) (v : Word) (s : State) : (State.setSlot i v s).startIp = s.startIp := rfl
@[simp] theorem State.setSlot_nglobals (i : Int) (v : Word) (s : State) : (State.setSlot i v s).nglobals = s.nglobals := rfl
@[simp] theorem State.setSlot_cfg (i : Int) (v : Word) (s : State) : (State.setSlot i v s).cfg = s.cfg := rfl
@[simp] theorem State.setSlot_draws (i : Int) (v : Word) (s : State) : (State.setSlot i v s).draws = s.draws := rfl

@[simp] theorem State.lowerSp_ip (i : Int) (s : State) : (State.lowerSp i s).ip = s.ip := rfl
@[simp] theorem State.lowerSp_sp (i : Int) (s : State) : (State.lowerSp i s).sp = wrapW i := rfl
@[simp] theorem State.lowerSp_fp (i : Int) (s : State) : (State.lowerSp i s).fp = s.fp := rfl
@[simp] theorem State.lowerSp_stack (i : Int) (s : State) : (State.lowerSp i s).stack = Memory.keepBelow s.stack (i + 1).toNat := rfl
@[simp] theorem State.lowerSp_globals (i : Int) (s : State) : (State.lowerSp i s).globals = s.globals := rfl
@[simp] theorem State.lowerSp_out (i : Int) (s : State) : (State.lowerSp i s).out = s.out := rfl
@[simp] theorem State.lowerSp_runState (i : Int) (s : State) : (State.lowerSp i s).runState = s.runState := rfl
@[simp] theorem State.lowerSp_faultCause (i : Int) (s : State) : (State.lowerSp i s).faultCause = s.faultCause := rfl
@[simp] theorem State.lowerSp_faultPc (i : Int) (s : State) : (State.lowerSp i s).faultPc = s.faultPc := rfl
@[simp] theorem State.lowerSp_faultValue (i : Int) (s : State) : (State.lowerSp i s).faultValue = s.faultValue := rfl
@[simp] theorem State.lowerSp_prog (i : Int) (s : State) : (State.lowerSp i s).prog = s.prog := rfl
@[simp] theorem State.lowerSp_progLen (i : Int) (s : State) : (State.lowerSp i s).progLen = s.progLen := rfl
@[simp] theorem State.lowerSp_startIp (i : Int) (s : State) : (State.lowerSp i s).startIp = s.startIp := rfl
@[simp] theorem State.lowerSp_nglobals (i : Int) (s : State) : (State.lowerSp i s).nglobals = s.nglobals := rfl
@[simp] theorem State.lowerSp_cfg (i : Int) (s : State) : (State.lowerSp i s).cfg = s.cfg := rfl
@[simp] theorem State.lowerSp_draws (i : Int) (s : State) : (State.lowerSp i s).draws = s.draws := rfl

@[simp] theorem State.push_ip (v : Word) (s : State) : (State.push v s).ip = s.ip := rfl
@[simp] theorem State.push_sp (v : Word) (s : State) : (State.push v s).sp = wrapW (s.sp.toInt + 1) := rfl
@[simp] theorem State.push_fp (v : Word) (s : State) : (State.push v s).fp = s.fp := rfl
@[simp] theorem State.push_stack (v : Word) (s : State) : (State.push v s).stack = Memory.put s.stack (s.sp.toInt + 1).toNat v := rfl
@[simp] theorem State.push_globals (v : Word) (s : State) : (State.push v s).globals = s.globals := rfl
@[simp] theorem State.push_out (v : Word) (s : State) : (State.push v s).out = s.out := rfl
@[simp] theorem State.push_runState (v : Word) (s : State) : (State.push v s).runState = s.runState := rfl
@[simp] theorem State.push_faultCause (v : Word) (s : State) : (State.push v s).faultCause = s.faultCause := rfl
@[simp] theorem State.push_faultPc (v : Word) (s : State) : (State.push v s).faultPc = s.faultPc := rfl
@[simp] theorem State.push_faultValue (v : Word) (s : State) : (State.push v s).faultValue = s.faultValue := rfl
@[simp] theorem State.push_prog (v : Word) (s : State) : (State.push v s).prog = s.prog := rfl
@[simp] theorem State.push_progLen (v : Word) (s : State) : (State.push v s).progLen = s.progLen := rfl
@[simp] theorem State.push_startIp (v : Word) (s : State) : (State.push v s).startIp = s.startIp := rfl
@[simp] theorem State.push_nglobals (v : Word) (s : State) : (State.push v s).nglobals = s.nglobals := rfl
@[simp] theorem State.push_cfg (v : Word) (s : State) : (State.push v s).cfg = s.cfg := rfl
@[simp] theorem State.push_draws (v : Word) (s : State) : (State.push v s).draws = s.draws := rfl

@[simp] theorem State.pop_ip (s : State) : (State.pop s).ip = s.ip := rfl
@[simp] theorem State.pop_sp (s : State) : (State.pop s).sp = wrapW (s.sp.toInt - 1) := rfl
@[simp] theorem State.pop_fp (s : State) : (State.pop s).fp = s.fp := rfl
@[simp] theorem State.pop_stack (s : State) : (State.pop s).stack = Memory.keepBelow s.stack (s.sp.toInt - 1 + 1).toNat := rfl
@[simp] theorem State.pop_globals (s : State) : (State.pop s).globals = s.globals := rfl
@[simp] theorem State.pop_out (s : State) : (State.pop s).out = s.out := rfl
@[simp] theorem State.pop_runState (s : State) : (State.pop s).runState = s.runState := rfl
@[simp] theorem State.pop_faultCause (s : State) : (State.pop s).faultCause = s.faultCause := rfl
@[simp] theorem State.pop_faultPc (s : State) : (State.pop s).faultPc = s.faultPc := rfl
@[simp] theorem State.pop_faultValue (s : State) : (State.pop s).faultValue = s.faultValue := rfl
@[simp] theorem State.pop_prog (s : State) : (State.pop s).prog = s.prog := rfl
@[simp] theorem State.pop_progLen (s : State) : (State.pop s).progLen = s.progLen := rfl
@[simp] theorem State.pop_startIp (s : State) : (State.pop s).startIp = s.startIp := rfl
@[simp] theorem State.pop_nglobals (s : State) : (State.pop s).nglobals = s.nglobals := rfl
@[simp] theorem State.pop_cfg (s : State) : (State.pop s).cfg = s.cfg := rfl
@[simp] theorem State.pop_draws (s : State) : (State.pop s).draws = s.draws := rfl

@[simp] theorem State.setGlobal_ip (k : Int) (v : Word) (s : State) : (State.setGlobal k v s).ip = s.ip := rfl
@[simp] theorem State.setGlobal_sp (k : Int) (v : Word) (s : State) : (State.setGlobal k v s).sp = s.sp := rfl
@[simp] theorem State.setGlobal_fp (k : Int) (v : Word) (s : State) : (State.setGlobal k v s).fp = s.fp := rfl
@[simp] theorem State.setGlobal_stack (k : Int) (v : Word) (s : State) : (State.setGlobal k v s).stack = s.stack := rfl
@[simp] theorem State.setGlobal_globals (k : Int) (v : Word) (s : State) : (State.setGlobal k v s).globals = Memory.writeZero s.globals k.toNat v := rfl
@[simp] theorem State.setGlobal_out (k : Int) (v : Word) (s : State) : (State.setGlobal k v s).out = s.out := rfl
@[simp] theorem State.setGlobal_runState (k : Int) (v : Word) (s : State) : (State.setGlobal k v s).runState = s.runState := rfl
@[simp] theorem State.setGlobal_faultCause (k : Int) (v : Word) (s : State) : (State.setGlobal k v s).faultCause = s.faultCause := rfl
@[simp] theorem State.setGlobal_faultPc (k : Int) (v : Word) (s : State) : (State.setGlobal k v s).faultPc = s.faultPc := rfl
@[simp] theorem State.setGlobal_faultValue (k : Int) (v : Word) (s : State) : (State.setGlobal k v s).faultValue = s.faultValue := rfl
@[simp] theorem State.setGlobal_prog (k : Int) (v : Word) (s : State) : (State.setGlobal k v s).prog = s.prog := rfl
@[simp] theorem State.setGlobal_progLen (k : Int) (v : Word) (s : State) : (State.setGlobal k v s).progLen = s.progLen := rfl
@[simp] theorem State.setGlobal_startIp (k : Int) (v : Word) (s : State) : (State.setGlobal k v s).startIp = s.startIp := rfl
@[simp] theorem State.setGlobal_nglobals (k : Int) (v : Word) (s : State) : (State.setGlobal k v s).nglobals = s.nglobals := rfl
@[simp] theorem State.setGlobal_cfg (k : Int) (v : Word) (s : State) : (State.setGlobal k v s).cfg = s.cfg := rfl
@[simp] theorem State.setGlobal_draws (k : Int) (v : Word) (s : State) : (State.setGlobal k v s).draws = s.draws := rfl

@[simp] theorem State.setIp_ip (v : Word) (s : State) : (State.setIp v s).ip = v := rfl
@[simp] theorem State.setIp_sp (v : Word) (s : State) : (State.setIp v s).sp = s.sp := rfl
@[simp] theorem State.setIp_fp (v : Word) (s : State) : (State.setIp v s).fp = s.fp := rfl
@[simp] theorem State.setIp_stack (v : Word) (s : State) : (State.setIp v s).stack = s.stack := rfl
@[simp] theorem State.setIp_globals (v : Word) (s : State) : (State.setIp v s).globals = s.globals := rfl
@[simp] theorem State.setIp_out (v : Word) (s : State) : (State.setIp v s).out = s.out := rfl
@[simp] theorem State.setIp_runState (v : Word) (s : State) : (State.setIp v s).runState = s.runState := rfl
@[simp] theorem State.setIp_faultCause (v : Word) (s : State) : (State.setIp v s).faultCause = s.faultCause := rfl
@[simp] theorem State.setIp_faultPc (v : Word) (s : State) : (State.setIp v s).faultPc = s.faultPc := rfl
@[simp] theorem State.setIp_faultValue (v : Word) (s : State) : (State.setIp v s).faultValue = s.faultValue := rfl
@[simp] theorem State.setIp_prog (v : Word) (s : State) : (State.setIp v s).prog = s.prog := rfl
@[simp] theorem State.setIp_progLen (v : Word) (s : State) : (State.setIp v s).progLen = s.progLen := rfl
@[simp] theorem State.setIp_startIp (v : Word) (s : State) : (State.setIp v s).startIp = s.startIp := rfl
@[simp] theorem State.setIp_nglobals (v : Word) (s : State) : (State.setIp v s).nglobals = s.nglobals := rfl
@[simp] theorem State.setIp_cfg (v : Word) (s : State) : (State.setIp v s).cfg = s.cfg := rfl
@[simp] theorem State.setIp_draws (v : Word) (s : State) : (State.setIp v s).draws = s.draws := rfl

@[simp] theorem State.setFp_ip (v : Word) (s : State) : (State.setFp v s).ip = s.ip := rfl
@[simp] theorem State.setFp_sp (v : Word) (s : State) : (State.setFp v s).sp = s.sp := rfl
@[simp] theorem State.setFp_fp (v : Word) (s : State) : (State.setFp v s).fp = v := rfl
@[simp] theorem State.setFp_stack (v : Word) (s : State) : (State.setFp v s).stack = s.stack := rfl
@[simp] theorem State.setFp_globals (v : Word) (s : State) : (State.setFp v s).globals = s.globals := rfl
@[simp] theorem State.setFp_out (v : Word) (s : State) : (State.setFp v s).out = s.out := rfl
@[simp] theorem State.setFp_runState (v : Word) (s : State) : (State.setFp v s).runState = s.runState := rfl
@[simp] theorem State.setFp_faultCause (v : Word) (s : State) : (State.setFp v s).faultCause = s.faultCause := rfl
@[simp] theorem State.setFp_faultPc (v : Word) (s : State) : (State.setFp v s).faultPc = s.faultPc := rfl
@[simp] theorem State.setFp_faultValue (v : Word) (s : State) : (State.setFp v s).faultValue = s.faultValue := rfl
@[simp] theorem State.setFp_prog (v : Word) (s : State) : (State.setFp v s).prog = s.prog := rfl
@[simp] theorem State.setFp_progLen (v : Word) (s : State) : (State.setFp v s).progLen = s.progLen := rfl
@[simp] theorem State.setFp_startIp (v : Word) (s : State) : (State.setFp v s).startIp = s.startIp := rfl
@[simp] theorem State.setFp_nglobals (v : Word) (s : State) : (State.setFp v s).nglobals = s.nglobals := rfl
@[simp] theorem State.setFp_cfg (v : Word) (s : State) : (State.setFp v s).cfg = s.cfg := rfl
@[simp] theorem State.setFp_draws (v : Word) (s : State) : (State.setFp v s).draws = s.draws := rfl

@[simp] theorem State.setRunState_ip (r : RunState) (s : State) : (State.setRunState r s).ip = s.ip := rfl
@[simp] theorem State.setRunState_sp (r : RunState) (s : State) : (State.setRunState r s).sp = s.sp := rfl
@[simp] theorem State.setRunState_fp (r : RunState) (s : State) : (State.setRunState r s).fp = s.fp := rfl
@[simp] theorem State.setRunState_stack (r : RunState) (s : State) : (State.setRunState r s).stack = s.stack := rfl
@[simp] theorem State.setRunState_globals (r : RunState) (s : State) : (State.setRunState r s).globals = s.globals := rfl
@[simp] theorem State.setRunState_out (r : RunState) (s : State) : (State.setRunState r s).out = s.out := rfl
@[simp] theorem State.setRunState_runState (r : RunState) (s : State) : (State.setRunState r s).runState = r := rfl
@[simp] theorem State.setRunState_faultCause (r : RunState) (s : State) : (State.setRunState r s).faultCause = s.faultCause := rfl
@[simp] theorem State.setRunState_faultPc (r : RunState) (s : State) : (State.setRunState r s).faultPc = s.faultPc := rfl
@[simp] theorem State.setRunState_faultValue (r : RunState) (s : State) : (State.setRunState r s).faultValue = s.faultValue := rfl
@[simp] theorem State.setRunState_prog (r : RunState) (s : State) : (State.setRunState r s).prog = s.prog := rfl
@[simp] theorem State.setRunState_progLen (r : RunState) (s : State) : (State.setRunState r s).progLen = s.progLen := rfl
@[simp] theorem State.setRunState_startIp (r : RunState) (s : State) : (State.setRunState r s).startIp = s.startIp := rfl
@[simp] theorem State.setRunState_nglobals (r : RunState) (s : State) : (State.setRunState r s).nglobals = s.nglobals := rfl
@[simp] theorem State.setRunState_cfg (r : RunState) (s : State) : (State.setRunState r s).cfg = s.cfg := rfl
@[simp] theorem State.setRunState_draws (r : RunState) (s : State) : (State.setRunState r s).draws = s.draws := rfl

@[simp] theorem State.emit_ip (v : Word) (s : State) : (State.emit v s).ip = s.ip := rfl
@[simp] theorem State.emit_sp (v : Word) (s : State) : (State.emit v s).sp = s.sp := rfl
@[simp] theorem State.emit_fp (v : Word) (s : State) : (State.emit v s).fp = s.fp := rfl
@[simp] theorem State.emit_stack (v : Word) (s : State) : (State.emit v s).stack = s.stack := rfl
@[simp] theorem State.emit_globals (v : Word) (s : State) : (State.emit v s).globals = s.globals := rfl
@[simp] theorem State.emit_out (v : Word) (s : State) : (State.emit v s).out = s.out ++ [v] := rfl
@[simp] theorem State.emit_runState (v : Word) (s : State) : (State.emit v s).runState = s.runState := rfl
@[simp] theorem State.emit_faultCause (v : Word) (s : State) : (State.emit v s).faultCause = s.faultCause := rfl
@[simp] theorem State.emit_faultPc (v : Word) (s : State) : (State.emit v s).faultPc = s.faultPc := rfl
@[simp] theorem State.emit_faultValue (v : Word) (s : State) : (State.emit v s).faultValue = s.faultValue := rfl
@[simp] theorem State.emit_prog (v : Word) (s : State) : (State.emit v s).prog = s.prog := rfl
@[simp] theorem State.emit_progLen (v : Word) (s : State) : (State.emit v s).progLen = s.progLen := rfl
@[simp] theorem State.emit_startIp (v : Word) (s : State) : (State.emit v s).startIp = s.startIp := rfl
@[simp] theorem State.emit_nglobals (v : Word) (s : State) : (State.emit v s).nglobals = s.nglobals := rfl
@[simp] theorem State.emit_cfg (v : Word) (s : State) : (State.emit v s).cfg = s.cfg := rfl
@[simp] theorem State.emit_draws (v : Word) (s : State) : (State.emit v s).draws = s.draws := rfl

@[simp] theorem State.advance_ip (s0 : State) (n : Nat) (s : State) : (State.advance s0 n s).ip = s0.nextIp n := rfl
@[simp] theorem State.advance_sp (s0 : State) (n : Nat) (s : State) : (State.advance s0 n s).sp = s.sp := rfl
@[simp] theorem State.advance_fp (s0 : State) (n : Nat) (s : State) : (State.advance s0 n s).fp = s.fp := rfl
@[simp] theorem State.advance_stack (s0 : State) (n : Nat) (s : State) : (State.advance s0 n s).stack = s.stack := rfl
@[simp] theorem State.advance_globals (s0 : State) (n : Nat) (s : State) : (State.advance s0 n s).globals = s.globals := rfl
@[simp] theorem State.advance_out (s0 : State) (n : Nat) (s : State) : (State.advance s0 n s).out = s.out := rfl
@[simp] theorem State.advance_runState (s0 : State) (n : Nat) (s : State) : (State.advance s0 n s).runState = s.runState := rfl
@[simp] theorem State.advance_faultCause (s0 : State) (n : Nat) (s : State) : (State.advance s0 n s).faultCause = s.faultCause := rfl
@[simp] theorem State.advance_faultPc (s0 : State) (n : Nat) (s : State) : (State.advance s0 n s).faultPc = s.faultPc := rfl
@[simp] theorem State.advance_faultValue (s0 : State) (n : Nat) (s : State) : (State.advance s0 n s).faultValue = s.faultValue := rfl
@[simp] theorem State.advance_prog (s0 : State) (n : Nat) (s : State) : (State.advance s0 n s).prog = s.prog := rfl
@[simp] theorem State.advance_progLen (s0 : State) (n : Nat) (s : State) : (State.advance s0 n s).progLen = s.progLen := rfl
@[simp] theorem State.advance_startIp (s0 : State) (n : Nat) (s : State) : (State.advance s0 n s).startIp = s.startIp := rfl
@[simp] theorem State.advance_nglobals (s0 : State) (n : Nat) (s : State) : (State.advance s0 n s).nglobals = s.nglobals := rfl
@[simp] theorem State.advance_cfg (s0 : State) (n : Nat) (s : State) : (State.advance s0 n s).cfg = s.cfg := rfl
@[simp] theorem State.advance_draws (s0 : State) (n : Nat) (s : State) : (State.advance s0 n s).draws = s.draws := rfl

@[simp] theorem takeFault_ip (c : Cause) (v : Word) (s : State) : (takeFault c v s).ip = s.ip := rfl
@[simp] theorem takeFault_sp (c : Cause) (v : Word) (s : State) : (takeFault c v s).sp = s.sp := rfl
@[simp] theorem takeFault_fp (c : Cause) (v : Word) (s : State) : (takeFault c v s).fp = s.fp := rfl
@[simp] theorem takeFault_stack (c : Cause) (v : Word) (s : State) : (takeFault c v s).stack = s.stack := rfl
@[simp] theorem takeFault_globals (c : Cause) (v : Word) (s : State) : (takeFault c v s).globals = s.globals := rfl
@[simp] theorem takeFault_out (c : Cause) (v : Word) (s : State) : (takeFault c v s).out = s.out := rfl
@[simp] theorem takeFault_runState (c : Cause) (v : Word) (s : State) : (takeFault c v s).runState = .faulted := rfl
@[simp] theorem takeFault_faultCause (c : Cause) (v : Word) (s : State) : (takeFault c v s).faultCause = c := rfl
@[simp] theorem takeFault_faultPc (c : Cause) (v : Word) (s : State) : (takeFault c v s).faultPc = s.ip := rfl
@[simp] theorem takeFault_faultValue (c : Cause) (v : Word) (s : State) : (takeFault c v s).faultValue = v := rfl
@[simp] theorem takeFault_prog (c : Cause) (v : Word) (s : State) : (takeFault c v s).prog = s.prog := rfl
@[simp] theorem takeFault_progLen (c : Cause) (v : Word) (s : State) : (takeFault c v s).progLen = s.progLen := rfl
@[simp] theorem takeFault_startIp (c : Cause) (v : Word) (s : State) : (takeFault c v s).startIp = s.startIp := rfl
@[simp] theorem takeFault_nglobals (c : Cause) (v : Word) (s : State) : (takeFault c v s).nglobals = s.nglobals := rfl
@[simp] theorem takeFault_cfg (c : Cause) (v : Word) (s : State) : (takeFault c v s).cfg = s.cfg := rfl
@[simp] theorem takeFault_draws (c : Cause) (v : Word) (s : State) : (takeFault c v s).draws = s.draws := rfl

end Sys2Proof.Machine
end

