-- ==== Sys2Proof/Laws/Ops.lean ====
section
/-! SUPPORT. Signed values of wrapped integers, and what a slot or a global reads as after each shared
operation: said once here, cited by proofs about instructions. -/

namespace Sys2Proof.Machine

/-! ### Signed values -/

theorem toInt_low (w : Word) : -2147483648 ≤ w.toInt := by
  have := BitVec.le_toInt (x := w); simpa using this

theorem toInt_high (w : Word) : w.toInt < 2147483648 := by
  have := BitVec.toInt_lt (x := w); simpa using this

/-- An integer a word can hold is not changed by wrapping. -/
theorem toInt_wrapW {x : Int} (lo : -2147483648 ≤ x) (hi : x < 2147483648) : (wrapW x).toInt = x := by
  unfold wrapW
  rw [BitVec.toInt_ofInt]
  simp only [Int.bmod]
  omega

@[simp] theorem wrapW_toInt (w : Word) : wrapW w.toInt = w := by
  unfold wrapW; exact BitVec.ofInt_toInt

theorem sp_pred_toInt (s : State) (h : 0 ≤ s.sp.toInt) : (wrapW (s.sp.toInt - 1)).toInt = s.sp.toInt - 1 := by
  have := toInt_high s.sp
  exact toInt_wrapW (by omega) (by omega)

theorem sp_add_toInt (s : State) (n : Nat) (h : s.fits n) :
    (wrapW (s.sp.toInt + n)).toInt = s.sp.toInt + n := by
  have := toInt_high s.cfg.stackCap
  have := toInt_low s.sp
  exact toInt_wrapW (by omega) (by omega)

/-! ### Slots after an update -/

/-- The slot an unchanged stack gives, when the draw counter is unchanged too. -/
theorem State.slot_congr {s t : State} {i : Int} (hd : t.draws = s.draws)
    (h : Memory.read? t.stack i.toNat = Memory.read? s.stack i.toNat) : t.slot i = s.slot i := by
  unfold State.slot; rw [h, hd]

@[simp] theorem State.slot_setIp (v : Word) (s : State) (i : Int) : (s.setIp v).slot i = s.slot i := rfl
@[simp] theorem State.slot_setFp (v : Word) (s : State) (i : Int) : (s.setFp v).slot i = s.slot i := rfl
@[simp] theorem State.slot_emit (v : Word) (s : State) (i : Int) : (s.emit v).slot i = s.slot i := rfl
@[simp] theorem State.slot_setGlobal (k : Int) (v : Word) (s : State) (i : Int) :
    (s.setGlobal k v).slot i = s.slot i := rfl
@[simp] theorem State.slot_setRunState (r : RunState) (s : State) (i : Int) :
    (s.setRunState r).slot i = s.slot i := rfl
@[simp] theorem State.slot_advance (s0 : State) (n : Nat) (s : State) (i : Int) :
    (s0.advance n s).slot i = s.slot i := rfl

@[simp] theorem State.slot_setSlot_same (i : Int) (v : Word) (s : State) : (s.setSlot i v).slot i = v := by
  simp [State.slot]

theorem State.slot_setSlot_ne {i j : Int} (v : Word) (s : State) (hi : 0 ≤ i) (hj : 0 ≤ j) (h : j ≠ i) :
    (s.setSlot i v).slot j = s.slot j := by
  refine State.slot_congr rfl ?_
  simp only [State.setSlot_stack]
  exact Memory.read?_put_ne _ _ (by omega)

/-- Lowering sp leaves the slots up to the new sp. -/
theorem State.slot_lowerSp {i j : Int} (s : State) (hj : 0 ≤ j) (h : j ≤ i) :
    (s.lowerSp i).slot j = s.slot j := by
  refine State.slot_congr rfl ?_
  simp only [State.lowerSp_stack, Memory.read?_keepBelow]
  rw [if_pos (by omega)]

theorem State.slot_pop {j : Int} (s : State) (hj : 0 ≤ j) (h : j ≤ s.sp.toInt - 1) :
    s.pop.slot j = s.slot j := State.slot_lowerSp s hj h

@[simp] theorem State.slot_push_new (v : Word) (s : State) : (s.push v).slot (s.sp.toInt + 1) = v := by
  simp [State.slot]

theorem State.slot_push_old {j : Int} (v : Word) (s : State) (hj : 0 ≤ j) (h : j < s.sp.toInt + 1) :
    (s.push v).slot j = s.slot j := by
  refine State.slot_congr rfl ?_
  simp only [State.push_stack]
  exact Memory.read?_put_ne _ _ (by omega)

/-! ### Globals after an update -/

theorem State.global_setGlobal {k j : Int} (v : Word) (s : State) (hk : 0 ≤ k) (hj : 0 ≤ j) :
    (s.setGlobal k v).global j = if j = k then v else s.global j := by
  simp only [State.global, State.setGlobal_globals, Memory.readZero_writeZero]
  by_cases h : j = k
  · simp [h]
  · rw [if_neg h, if_neg (by omega)]

@[simp] theorem State.global_setIp (v : Word) (s : State) (k : Int) : (s.setIp v).global k = s.global k := rfl
@[simp] theorem State.global_setFp (v : Word) (s : State) (k : Int) : (s.setFp v).global k = s.global k := rfl
@[simp] theorem State.global_emit (v : Word) (s : State) (k : Int) : (s.emit v).global k = s.global k := rfl
@[simp] theorem State.global_setRunState (r : RunState) (s : State) (k : Int) :
    (s.setRunState r).global k = s.global k := rfl
@[simp] theorem State.global_advance (s0 : State) (n : Nat) (s : State) (k : Int) :
    (s0.advance n s).global k = s.global k := rfl
@[simp] theorem State.global_setSlot (i : Int) (v : Word) (s : State) (k : Int) :
    (s.setSlot i v).global k = s.global k := rfl
@[simp] theorem State.global_lowerSp (i : Int) (s : State) (k : Int) : (s.lowerSp i).global k = s.global k := rfl
@[simp] theorem State.global_pop (s : State) (k : Int) : s.pop.global k = s.global k := rfl
@[simp] theorem State.global_push (v : Word) (s : State) (k : Int) : (s.push v).global k = s.global k := rfl

/-! ### The three pushes of CALL (R181) -/

/-- The listed words after three pushes, and sp. -/
theorem push_three {a b c : Word} {s : State} (lo : -1 ≤ s.sp.toInt) (h : s.fits 3) :
    (((s.push a).push b).push c).sp.toInt = s.sp.toInt + 3 ∧
    ∀ j : Nat, Memory.read? (((s.push a).push b).push c).stack j =
      if (j : Int) = s.sp.toInt + 3 then some c
      else if (j : Int) = s.sp.toInt + 2 then some b
      else if (j : Int) = s.sp.toInt + 1 then some a
      else Memory.read? s.stack j := by
  have cap := toInt_high s.cfg.stackCap
  have e1 : (wrapW (s.sp.toInt + 1)).toInt = s.sp.toInt + 1 := toInt_wrapW (by omega) (by omega)
  have e2 : (wrapW (s.sp.toInt + 1 + 1)).toInt = s.sp.toInt + 1 + 1 := toInt_wrapW (by omega) (by omega)
  have e3 : (wrapW (s.sp.toInt + 1 + 1 + 1)).toInt = s.sp.toInt + 1 + 1 + 1 :=
    toInt_wrapW (by omega) (by omega)
  refine ⟨by simp only [State.push_sp, e1, e2, e3]; omega, fun j => ?_⟩
  simp only [State.push_stack, State.push_sp, e1, e2, Memory.read?_put]
  have q3 : j = (s.sp.toInt + 1 + 1 + 1).toNat ↔ (j : Int) = s.sp.toInt + 3 := by omega
  have q2 : j = (s.sp.toInt + 1 + 1).toNat ↔ (j : Int) = s.sp.toInt + 2 := by omega
  have q1 : j = (s.sp.toInt + 1).toNat ↔ (j : Int) = s.sp.toInt + 1 := by omega
  simp only [q1, q2, q3]

/-! ### Shared operations: everything each can answer -/

/-- What an ALU instruction can do (R120). -/
theorem aluOp_cases (op : Word → Word → Word) (s : State) :
    (s.holds 2 ∧ aluOp op s = .next (s.advance 0 ((s.lowerSp (s.sp.toInt - 1)).setSlot (s.sp.toInt - 1)
      (op (s.slot (s.sp.toInt - 1)) s.top)))) ∨
    (¬ s.holds 2 ∧ aluOp op s = raise .stackUnderflow s.sp s) := by
  unfold aluOp
  split
  · exact .inl ⟨‹_›, rfl⟩
  · exact .inr ⟨‹_›, rfl⟩

/-- What a conditional branch can do (R142, R143). -/
theorem branchOn_cases (expected target : Word) (s : State) :
    (s.holds 1 ∧ branchOn expected target s =
      .next (s.pop.setIp (if s.top = expected then target else s.nextIp 1))) ∨
    (¬ s.holds 1 ∧ branchOn expected target s = raise .stackUnderflow s.sp s) := by
  unfold branchOn
  split
  · exact .inl ⟨‹_›, rfl⟩
  · exact .inr ⟨‹_›, rfl⟩

/-- What the push of a result can do (R161, R162, R163). -/
theorem pushResult_cases (v : Word) (s : State) :
    (s.fits 1 ∧ pushResult v s = .next (s.advance 1 (s.push v))) ∨
    (¬ s.fits 1 ∧ pushResult v s = raise .stackOverflow s.sp s) := by
  unfold pushResult
  split
  · exact .inl ⟨‹_›, rfl⟩
  · exact .inr ⟨‹_›, rfl⟩

end Sys2Proof.Machine
end

