-- ==== Sys2Proof/Laws/Exec.lean ====
section
/-! SUPPORT. Said once, with its guards: what an instruction can do (`exec_cases`) and what a step can do
(`step_running`). Proofs about all instructions go through these instead of unfolding the meanings. -/

namespace Sys2Proof.Machine

/-- The state an instruction leads to when all its checks pass. -/
def effect (i : Instr) (s : State) : State :=
  match i with
  | .halt => s.advance 0 (s.setRunState .halted)
  | .iadd => s.advance 0 ((s.lowerSp (s.sp.toInt - 1)).setSlot (s.sp.toInt - 1)
      (wrapW ((s.slot (s.sp.toInt - 1)).toInt + s.top.toInt)))
  | .isub => s.advance 0 ((s.lowerSp (s.sp.toInt - 1)).setSlot (s.sp.toInt - 1)
      (wrapW ((s.slot (s.sp.toInt - 1)).toInt - s.top.toInt)))
  | .imul => s.advance 0 ((s.lowerSp (s.sp.toInt - 1)).setSlot (s.sp.toInt - 1)
      (wrapW ((s.slot (s.sp.toInt - 1)).toInt * s.top.toInt)))
  | .ilt => s.advance 0 ((s.lowerSp (s.sp.toInt - 1)).setSlot (s.sp.toInt - 1)
      (lessThan (s.slot (s.sp.toInt - 1)) s.top))
  | .ieq => s.advance 0 ((s.lowerSp (s.sp.toInt - 1)).setSlot (s.sp.toInt - 1)
      (equalTo (s.slot (s.sp.toInt - 1)) s.top))
  | .br target => s.setIp target
  | .brt target => s.pop.setIp (if s.top = 1 then target else s.nextIp 1)
  | .brf target => s.pop.setIp (if s.top = 0 then target else s.nextIp 1)
  | .iconst value => s.advance 1 (s.push value)
  | .load offset => s.advance 1 (s.push (s.slot (s.frameIndex offset)))
  | .gload index => s.advance 1 (s.push (s.global index.toInt))
  | .store offset => s.advance 1 (s.pop.setSlot (s.frameIndex offset) s.top)
  | .gstore index => s.advance 1 (s.pop.setGlobal index.toInt s.top)
  | .print => s.advance 0 (s.pop.emit s.top)
  | .pop => s.advance 0 s.pop
  | .call target argc =>
    ((((s.push argc).push s.fp).push (s.nextIp 2)).setFp (wrapW (s.sp.toInt + 3))).setIp target
  | .ret => unwindFrame s

/-- The checks an instruction makes before its first write. -/
def checks (i : Instr) (s : State) : Prop :=
  match i with
  | .halt => True
  | .iadd => s.holds 2
  | .isub => s.holds 2
  | .imul => s.holds 2
  | .ilt => s.holds 2
  | .ieq => s.holds 2
  | .br _ => True
  | .brt _ => s.holds 1
  | .brf _ => s.holds 1
  | .iconst _ => s.fits 1
  | .load offset => (0 ≤ s.frameIndex offset ∧ s.frameIndex offset ≤ s.sp.toInt) ∧ s.fits 1
  | .gload index => s.isGlobal index ∧ s.fits 1
  | .store offset => s.holds 1 ∧ 0 ≤ s.frameIndex offset ∧ s.frameIndex offset ≤ s.sp.toInt - 1
  | .gstore index => s.holds 1 ∧ s.isGlobal index
  | .print => s.holds 1
  | .pop => s.holds 1
  | .call _ _ => s.fits 3
  | .ret => s.holds 1 ∧ 2 ≤ s.fp.toInt ∧ s.fp.toInt ≤ s.sp.toInt - 1 ∧
      0 ≤ (s.slot (s.fp.toInt - 2)).toInt ∧ (s.slot (s.fp.toInt - 2)).toInt ≤ s.fp.toInt - 2

/-- The causes an instruction's own rule can raise (R201). -/
def instrCause (c : Cause) : Prop := c ≠ .none ∧ c ≠ .invalidOpcode ∧ c ≠ .fetchOutOfRange

theorem exec_of_checks {i : Instr} {s : State} (h : checks i s) : exec i s = .next (effect i s) := by
  cases i with
  | halt => rfl
  | br => rfl
  | iadd => exact if_pos h
  | isub => exact if_pos h
  | imul => exact if_pos h
  | ilt => exact if_pos h
  | ieq => exact if_pos h
  | brt => exact if_pos h
  | brf => exact if_pos h
  | iconst => exact if_pos h
  | load => exact (if_pos h.1).trans (if_pos h.2)
  | gload => exact (if_pos h.1).trans (if_pos h.2)
  | store => exact (if_pos h.1).trans (if_pos h.2)
  | gstore => exact (if_pos h.1).trans (if_pos h.2)
  | print => exact if_pos h
  | pop => exact if_pos h
  | call => exact if_pos h
  | ret =>
    exact (if_pos h.1).trans ((if_pos h.2.1).trans ((if_pos h.2.2.1).trans ((if_pos h.2.2.2.1).trans (if_pos h.2.2.2.2))))

/-- A test that fails leads to its fault: for the nested checks of a meaning. -/
theorem fault_of_not_and {p q : Prop} [Decidable p] {r : Result} {d : Cause} {x : Word} {s : State}
    (hc : instrCause d) (h : ¬ (p ∧ q))
    (hr : p → ¬ q → ∃ c v, instrCause c ∧ r = .next (takeFault c v s)) :
    ∃ c v, instrCause c ∧ (if p then r else raise d x s) = .next (takeFault c v s) := by
  by_cases hp : p
  · obtain ⟨c', v', h1, h2⟩ := hr hp fun hq => h ⟨hp, hq⟩
    exact ⟨c', v', h1, (if_pos hp).trans h2⟩
  · exact ⟨d, x, hc, if_neg hp⟩

theorem fault_of_not {p : Prop} [Decidable p] {r : Result} {d : Cause} {x : Word} {s : State}
    (hc : instrCause d) (h : ¬ p) :
    ∃ c v, instrCause c ∧ (if p then r else raise d x s) = .next (takeFault c v s) :=
  ⟨d, x, hc, if_neg h⟩

theorem exec_of_not_checks {i : Instr} {s : State} (h : ¬ checks i s) :
    ∃ c v, instrCause c ∧ exec i s = .next (takeFault c v s) := by
  have underflow : instrCause .stackUnderflow := ⟨by decide, by decide, by decide⟩
  have overflow : instrCause .stackOverflow := ⟨by decide, by decide, by decide⟩
  have frame : instrCause .invalidFrameOffset := ⟨by decide, by decide, by decide⟩
  have global : instrCause .invalidGlobalIndex := ⟨by decide, by decide, by decide⟩
  have argc : instrCause .invalidArgCount := ⟨by decide, by decide, by decide⟩
  cases i <;> simp only [checks, not_true] at h <;>
    simp only [exec, execIadd, execIsub, execImul, execIlt, execIeq, execBrt, execBrf, execIconst, execLoad,
      execGload, execStore, execGstore, execPrint, execPop, execCall, execRet, aluOp, branchOn, pushResult]
  case iadd | isub | imul | ilt | ieq | brt | brf | print | pop => exact fault_of_not underflow h
  case iconst | call => exact fault_of_not overflow h
  case load => exact fault_of_not_and frame h fun _ hq => fault_of_not overflow hq
  case gload => exact fault_of_not_and global h fun _ hq => fault_of_not overflow hq
  case store => exact fault_of_not_and underflow h fun _ hq => fault_of_not frame hq
  case gstore => exact fault_of_not_and underflow h fun _ hq => fault_of_not global hq
  case ret =>
    exact fault_of_not_and underflow h fun _ h => fault_of_not_and underflow h fun _ h =>
      fault_of_not_and frame h fun _ h => fault_of_not_and argc h fun _ h => fault_of_not underflow h

/-- Everything an instruction can do: its effect when its checks pass, else one fault with nothing else
written. -/
theorem exec_cases (i : Instr) (s : State) :
    (checks i s ∧ exec i s = .next (effect i s)) ∨
    (¬ checks i s ∧ ∃ c v, instrCause c ∧ exec i s = .next (takeFault c v s)) := by
  by_cases h : checks i s
  · exact .inl ⟨h, exec_of_checks h⟩
  · exact .inr ⟨h, exec_of_not_checks h⟩

/-- Outside RUNNING a step answers the state as it is. -/
theorem step_idle {s : State} (h : s.runState ≠ .running) : step s = .next s := by
  unfold step idle
  cases hr : s.runState <;> simp_all

/-- Everything a step can do in RUNNING. -/
theorem step_running {s : State} (h : s.runState = .running) :
    (∃ i, fetch s = .instr i ∧ step s = exec i s) ∨
    (∃ w, fetch s = .invalidOpcode w ∧ step s = raiseInvalidOpcode w s) ∨
    (∃ a, fetch s = .outOfRange a ∧ step s = raiseFetch a s) := by
  unfold step
  rw [h]
  cases hf : fetch s with
  | instr i => exact .inl ⟨i, rfl, rfl⟩
  | invalidOpcode w => exact .inr (.inl ⟨w, rfl, rfl⟩)
  | outOfRange a => exact .inr (.inr ⟨a, rfl, rfl⟩)

/-- `step_running` with the instruction's outcome taken apart: the four ends of a step in RUNNING. -/
theorem step_running_cases {s t : State} (h : s.runState = .running) (hs : step s = .next t) :
    (∃ i, fetch s = .instr i ∧ checks i s ∧ t = effect i s) ∨
    (∃ i c v, fetch s = .instr i ∧ ¬ checks i s ∧ instrCause c ∧ t = takeFault c v s) ∨
    (∃ w, fetch s = .invalidOpcode w ∧
      t = (takeFault .invalidOpcode w s).setIp (wrapW (s.ip.toInt + 1))) ∨
    (∃ a, fetch s = .outOfRange a ∧ t = takeFault .fetchOutOfRange (wrapW a) s) := by
  rcases step_running h with ⟨i, hf, he⟩ | ⟨w, hf, he⟩ | ⟨a, hf, he⟩ <;> rw [he] at hs
  · rcases exec_cases i s with ⟨hc, hx⟩ | ⟨hc, c, v, hcv, hx⟩ <;> rw [hx] at hs <;> cases hs
    · exact .inl ⟨i, hf, hc, rfl⟩
    · exact .inr (.inl ⟨i, c, v, hf, hc, hcv, rfl⟩)
  · cases hs; exact .inr (.inr (.inl ⟨w, hf, rfl⟩))
  · cases hs; exact .inr (.inr (.inr ⟨a, hf, rfl⟩))

end Sys2Proof.Machine
end

