-- ==== Sys2Proof/Laws/PerInstr.lean ====
section
/-! SUPPORT. Facts about every instruction as syntax, one lemma a constructor. -/

namespace Sys2Proof.Laws.EncodedLength

/-- The instruction is well formed and takes 1 + arity words (R71, R73). -/
def Statement (i : Instr) : Prop :=
  i.wellFormed = true ∧ ∀ c : OpcodeMap, (encode c i).length = 1 + i.mnemonic.arity

theorem halt : Statement .halt := ⟨rfl, fun _ => rfl⟩
theorem iadd : Statement .iadd := ⟨rfl, fun _ => rfl⟩
theorem isub : Statement .isub := ⟨rfl, fun _ => rfl⟩
theorem imul : Statement .imul := ⟨rfl, fun _ => rfl⟩
theorem ilt : Statement .ilt := ⟨rfl, fun _ => rfl⟩
theorem ieq : Statement .ieq := ⟨rfl, fun _ => rfl⟩
theorem br (target : Word) : Statement (.br target) := ⟨rfl, fun _ => rfl⟩
theorem brt (target : Word) : Statement (.brt target) := ⟨rfl, fun _ => rfl⟩
theorem brf (target : Word) : Statement (.brf target) := ⟨rfl, fun _ => rfl⟩
theorem iconst (value : Word) : Statement (.iconst value) := ⟨rfl, fun _ => rfl⟩
theorem load (offset : Word) : Statement (.load offset) := ⟨rfl, fun _ => rfl⟩
theorem gload (index : Word) : Statement (.gload index) := ⟨rfl, fun _ => rfl⟩
theorem store (offset : Word) : Statement (.store offset) := ⟨rfl, fun _ => rfl⟩
theorem gstore (index : Word) : Statement (.gstore index) := ⟨rfl, fun _ => rfl⟩
theorem print : Statement .print := ⟨rfl, fun _ => rfl⟩
theorem pop : Statement .pop := ⟨rfl, fun _ => rfl⟩
theorem call (target argc : Word) : Statement (.call target argc) := ⟨rfl, fun _ => rfl⟩
theorem ret : Statement .ret := ⟨rfl, fun _ => rfl⟩

end Sys2Proof.Laws.EncodedLength
end

