-- ==== Sys2Proof/Tests/Slice0.lean ====
section
/-! SUPPORT. Tests: the checks of WellFormed refuse ill-formed terms; words written out from the spec's
encodings decode; single steps against the vectors of spec/95_test_vectors.md (section 2, cited by its
subsection); and, for every statement with hypotheses, a state and operands that meet them. -/

namespace Sys2Proof.Machine.Tests

/-! ### WellFormed -/

/-- A map with HALT and IADD on one word is refused (R8). -/
theorem test_map_not_injective : ({ OpcodeMap.default with iadd := 0 } : OpcodeMap).wellFormed = false := by
  decide

/-- STACK_CAP = 0, GLOBALS_MAX = -1 and a map that is not injective are each refused (R8). -/
theorem test_config_refused :
    ({ State.reset.cfg with stackCap := 0 } : Config).wellFormed = false ∧
    ({ State.reset.cfg with globalsMax := -1 } : Config).wellFormed = false ∧
    ({ State.reset.cfg with opcodes := { OpcodeMap.default with ret := 16 } } : Config).wellFormed = false ∧
    State.reset.cfg.wellFormed = true := by decide

/-- No words, an illegal opcode word, a missing operand and an operand too many are refused; CALL 0, 1 is
not (R71, R76). No term of `Instr` is ill formed (R77). -/
theorem test_words_refused :
    OpcodeMap.default.wordsWellFormed [] = false ∧ OpcodeMap.default.wordsWellFormed [18] = false ∧
    OpcodeMap.default.wordsWellFormed [16, 0] = false ∧ OpcodeMap.default.wordsWellFormed [1, 0] = false ∧
    OpcodeMap.default.wordsWellFormed [16, 0, 1] = true := by decide

/-! ### Decoding: words written out from R71 and R74, one for every constructor -/

theorem test_words_system :
    decode OpcodeMap.default [0x00000000#32] = .ok .halt [] ∧
    decode OpcodeMap.default [0x0000000E#32] = .ok .print [] := by decide

theorem test_words_alu :
    decode OpcodeMap.default [0x00000001#32] = .ok .iadd [] ∧
    decode OpcodeMap.default [0x00000002#32] = .ok .isub [] ∧
    decode OpcodeMap.default [0x00000003#32] = .ok .imul [] ∧
    decode OpcodeMap.default [0x00000004#32] = .ok .ilt [] ∧
    decode OpcodeMap.default [0x00000005#32] = .ok .ieq [] := by decide

theorem test_words_branch :
    decode OpcodeMap.default [0x00000006#32, 0xFFFFFFFC#32] = .ok (.br (-4)) [] ∧
    decode OpcodeMap.default [0x00000007#32, 0x00000014#32] = .ok (.brt 20) [] ∧
    decode OpcodeMap.default [0x00000008#32, 0x0000000A#32] = .ok (.brf 10) [] := by decide

theorem test_words_data :
    decode OpcodeMap.default [0x00000009#32, 0x80000000#32] = .ok (.iconst (-2147483648)) [] ∧
    decode OpcodeMap.default [0x0000000A#32, 0xFFFFFFFD#32] = .ok (.load (-3)) [] ∧
    decode OpcodeMap.default [0x0000000B#32, 0x00000002#32] = .ok (.gload 2) [] ∧
    decode OpcodeMap.default [0x0000000C#32, 0x00000001#32] = .ok (.store 1) [] ∧
    decode OpcodeMap.default [0x0000000D#32, 0x00000000#32] = .ok (.gstore 0) [] ∧
    decode OpcodeMap.default [0x0000000F#32] = .ok .pop [] := by decide

theorem test_words_procedure :
    decode OpcodeMap.default [0x00000010#32, 0x00000000#32, 0x00000001#32] = .ok (.call 0 1) [] ∧
    decode OpcodeMap.default [0x00000011#32, 0x00000007#32] = .ok .ret [7] := by decide

/-- R76, R78: an illegal word and missing operands are named. -/
theorem test_words_rejected :
    decode OpcodeMap.default [0xFFFFFFFF#32] = .invalidOpcode (-1) ∧
    decode OpcodeMap.default [0x00000009#32] = .missing 1 ∧
    decode OpcodeMap.default [0x00000010#32, 0x00000000#32] = .missing 2 ∧
    decode OpcodeMap.default [] = .missing 0 := by decide

/-- The table's numbering: the first word is bits 31..0, operand A bits 63..32, operand B bits 95..64. -/
theorem test_table_word :
    decodeTableWord 32 16 = some (.call 0 0) ∧
    decodeTableWord 96 0x000000010000001400000010 = some (.call 20 1) ∧
    decodeTableWord 32 18 = none := by decide

/-! ### Single steps against spec/95 -/

/-- A RUNNING core at address 0 of a program, with a stack written bottom first. -/
def at0 (prog stack : List Word) (fp : Word := -1) (globals : List Word := []) (cap : Word := 1000) : State :=
  { State.reset with
    sp := wrapW ((stack.length : Int) - 1), fp := fp, stack := stack.zipIdx.map fun c => (c.2, c.1)
    globals := Memory.ofCells (globals.zipIdx.map fun c => (c.2, c.1)), runState := .running
    prog := prog, progLen := wrapW prog.length, nglobals := wrapW globals.length
    cfg := { State.reset.cfg with stackCap := cap } }

/-- ip, sp, fp and the live stack of a next state that has not faulted. -/
def look : Result → Option (Int × Int × Int × List Int)
  | .next t =>
    if t.faultCause = .none then some (t.ip.toInt, t.sp.toInt, t.fp.toInt, t.liveStack.map BitVec.toInt)
    else none
  | .fault _ => none
  | .refused _ => none

/-- Cause, FAULT_PC, FAULT_VALUE, ip and sp of a FAULTED next state. -/
def lookFault : Result → Option (Cause × Int × Int × Int × Int)
  | .next t =>
    if t.runState = .faulted then
      some (t.faultCause, t.faultPc.toInt, t.faultValue.toInt, t.ip.toInt, t.sp.toInt)
    else none
  | .fault _ => none
  | .refused _ => none

/-- OUT, G and RUN_STATE of a next state. -/
def lookRest : Result → Option (List Int × List Int × RunState)
  | .next t => some (t.out.map BitVec.toInt, t.globalWords.map BitVec.toInt, t.runState)
  | .fault _ => none
  | .refused _ => none

/-- 2.1: only the top two slots are used. -/
theorem test_iadd : look (step (at0 [1] [9, 1, 2])) = some (1, 1, -1, [9, 3]) := by decide
/-- 2.1: wraps to 2^31 - 1, and the fault with one word. -/
theorem test_iadd_wraps : look (step (at0 [1] [-2147483648, -1])) = some (1, 0, -1, [2147483647]) ∧
    lookFault (step (at0 [1] [4])) = some (.stackUnderflow, 0, 0, 0, 0) := by decide
/-- 2.1: a - b with b on top. -/
theorem test_isub : look (step (at0 [2] [10, 3])) = some (1, 0, -1, [7]) := by decide
/-- 2.1: the low 32 bits. -/
theorem test_imul : look (step (at0 [3] [46341, 46341])) = some (1, 0, -1, [-2147479015]) := by decide
/-- 2.1: signed. -/
theorem test_ilt : look (step (at0 [4] [-1, 0])) = some (1, 0, -1, [1]) := by decide
/-- 2.1: the deeper word is on the left. -/
theorem test_ilt_order : look (step (at0 [4] [2, 1])) = some (1, 0, -1, [0]) := by decide
/-- 2.1. -/
theorem test_ieq : look (step (at0 [5] [5, -5])) = some (1, 0, -1, [0]) := by decide
/-- 2.2: not checked when taken. -/
theorem test_br : look (step (at0 [6, -4] [1])) = some (-4, 0, -1, [1]) := by decide
/-- 2.2: only 1 is true. -/
theorem test_brt : look (step (at0 [7, 7] [4, 1])) = some (7, 0, -1, [4]) ∧
    look (step (at0 [7, 7] [2])) = some (2, -1, -1, []) := by decide
/-- 2.2: only 0 is false. -/
theorem test_brf : look (step (at0 [8, 7] [0])) = some (7, -1, -1, []) ∧
    look (step (at0 [8, 7] [-1])) = some (2, -1, -1, []) := by decide
/-- 2.3: an operand equal to an opcode value, and a full stack. -/
theorem test_iconst : look (step (at0 [9, 16] [])) = some (2, 0, -1, [16]) ∧
    lookFault (step (at0 [9, 1] [8] (cap := 1))) = some (.stackOverflow, 0, 0, 0, 0) := by decide
/-- 2.3: the argument of the frame. -/
theorem test_load : look (step (at0 [10, -3] [35, 1, -1, 33] (fp := 3))) = some (2, 4, 3, [35, 1, -1, 33, 35]) := by
  decide
/-- 2.3: the index does not wrap, and the index is checked before the push (2.5). -/
theorem test_load_faults :
    lookFault (step (at0 [10, 2147483647] [1, 2, 3, 4, 5, 6] (fp := 5))) =
      some (.invalidFrameOffset, 0, 2147483647, 0, 5) ∧
    lookFault (step (at0 [10, 5] [1, 2] (cap := 2))) = some (.invalidFrameOffset, 0, 5, 0, 1) := by decide
/-- 2.3. -/
theorem test_gload : look (step (at0 [11, 2] [] (globals := [0, 0, 9]))) = some (2, 0, -1, [9]) ∧
    lookFault (step (at0 [11, 3] [] (globals := [0, 0, 9]))) = some (.invalidGlobalIndex, 0, 3, 0, -1) := by
  decide
/-- 2.3: overwrites the saved ip. -/
theorem test_store : look (step (at0 [12, 0] [35, 1, -1, 33, 50] (fp := 3))) = some (2, 3, 3, [35, 1, -1, 50]) := by
  decide
/-- 2.3: the popped slot. -/
theorem test_store_popped_slot :
    lookFault (step (at0 [12, 2] [0, 42])) = some (.invalidFrameOffset, 0, 2, 0, 1) := by decide
/-- 2.3: underflow is checked before the index. -/
theorem test_gstore : lookRest (step (at0 [13, 0] [5] (globals := [0]))) = some ([], [5], .running) ∧
    lookFault (step (at0 [13, 9] [] (globals := [0]))) = some (.stackUnderflow, 0, -1, 0, -1) := by decide
/-- 2.5. -/
theorem test_print : lookRest (step (at0 [14] [1, -2147483648])) = some ([-2147483648], [], .running) ∧
    look (step (at0 [14] [1, -2147483648])) = some (1, 0, -1, [1]) := by decide
/-- 2.3. -/
theorem test_pop : look (step (at0 [15] [1, 2])) = some (1, 0, -1, [1]) := by decide
/-- 2.4: sp + 3 = STACK_CAP - 1 fits. -/
theorem test_call :
    look (step (at0 [16, 10, 1] [1, 2, 3, 4, 5, 6, 7] (cap := 10))) =
      some (10, 9, 9, [1, 2, 3, 4, 5, 6, 7, 1, -1, 3]) ∧
    lookFault (step (at0 [16, 10, 1] [1, 2, 3, 4, 5, 6, 7, 8] (cap := 10))) =
      some (.stackOverflow, 0, 7, 0, 7) := by decide
/-- 2.4: n = 2. -/
theorem test_ret : look (step (at0 [17] [6, 7, 2, -1, 3, 8] (fp := 4))) = some (3, 0, -1, [8]) := by decide
/-- 2.4: the faults of RET, in a list with FAULT_VALUE. -/
theorem test_ret_faults :
    [step (at0 [17] [7]), step (at0 [17] [35, 1, -1, 33] (fp := 3)), step (at0 [17] [-1, -1, 33, 8] (fp := 2)),
      step (at0 [17] [35, 2, -1, 33, 8] (fp := 3))].map lookFault =
    [some (.stackUnderflow, 0, -1, 0, 0), some (.invalidFrameOffset, 0, 3, 0, 3),
      some (.invalidArgCount, 0, -1, 0, 3), some (.stackUnderflow, 0, 2, 0, 4)] := by decide
/-- 2.5: ip is one past the HALT. -/
theorem test_halt : look (step (at0 [0] [3, 4])) = some (1, 1, -1, [3, 4]) ∧
    lookRest (step (at0 [0] [3, 4])) = some ([], [], .halted) := by decide
/-- 2.5: ip = pc0 + 1 after INVALID_OPCODE. -/
theorem test_invalid_opcode :
    lookFault (step (at0 [99] [])) = some (.invalidOpcode, 0, 99, 1, -1) ∧
    lookFault (step (at0 [-1] [])) = some (.invalidOpcode, 0, -1, 1, -1) := by decide
/-- 2.5: an empty program, a missing operand B, and the fetch checked before the overflow. -/
theorem test_fetch_out_of_range :
    lookFault (step (at0 [] [])) = some (.fetchOutOfRange, 0, 0, 0, -1) ∧
    lookFault (step (at0 [16, 0] [])) = some (.fetchOutOfRange, 0, 2, 0, -1) ∧
    lookFault (step (at0 [9] [1] (cap := 1))) = some (.fetchOutOfRange, 0, 1, 0, 0) := by decide

/-- 2.6: Initialise and Run, a negative count, and a refused second Initialise. -/
theorem test_host :
    (serve (.initialise [0] 0 2) State.reset).1 = .done ∧
    (serve (.initialise [0] 0 2) State.reset).2.snapshot =
      { registers := [0, -1, -1, 1, 0, 0, 0, 1, 0, 2, 1000], globals := [0, 0], liveStack := [], out := [] } ∧
    serve (.initialise [0] 0 (-1)) State.reset = (.allocFailure, State.reset) ∧
    (serve (.initialise [0] 0 0) (serve (.initialise [0] 0 2) State.reset).2).1 = .refused ∧
    (serve .dispose State.reset).1 = .refused ∧ (serve .inspect State.reset).1 = .refused := by decide

/-- R102's example: -2147483648 as text. -/
theorem test_render :
    renderWord (-2147483648) = [0x2D, 0x32, 0x31, 0x34, 0x37, 0x34, 0x38, 0x33, 0x36, 0x34, 0x38, 0x0A] ∧
    renderWord 0 = [0x30, 0x0A] := by decide

/-- What the host asks: a row's word, placed after reset, decodes and runs. -/
theorem test_placed_word :
    look (step (State.reset.withFetchWord 96 0x000000010000001400000010)) = some (20, 2, 2, [1, -1, 3]) := by
  decide

/-! ### The hypotheses of the statements can be met -/

/-- A state of the invariant: RUNNING, one word on the stack, two globals. -/
def live1 (prog : List Word) : State := at0 prog [5] (globals := [3, 0])

theorem live1_inv (prog : List Word) (h : prog.length ≤ 2147483647) : (live1 prog).Inv where
  config := by show State.reset.cfg.wellFormed = true; decide
  stack_rising := by simp [live1, at0, Memory.rising]
  globals_wf := Memory.wf_ofCells _
  bound := fun _ => {
    sp_low := by simp only [live1, at0]; decide
    sp_high := by simp only [live1, at0]; decide
    stack_live := by
      intro i
      have e : (live1 prog).sp.toInt = 0 := by simp only [live1, at0]; decide
      rw [e]
      simp only [live1, at0, List.zipIdx, List.map, Memory.read?]
      by_cases hi : 0 = i
      · simp [← hi]
      · simp [hi]; omega
    globals_fit := by simp only [live1, at0]; decide
    nglobals_low := by simp only [live1, at0]; decide
    nglobals_high := by simp only [live1, at0]; decide
    prog_len := toInt_wrapW (by omega) (by omega)
    cause := by simp [live1, at0, State.reset] }

/-- DecodeOfEncode, OpcodeWordSelectsMnemonic; and for EncodeOfDecode words that decode. -/
theorem witness_encoding :
    OpcodeMap.default.wellFormed = true ∧ decode OpcodeMap.default [16, 0, 1, 9] = .ok (.call 0 1) [9] := by decide

/-- IllegalOpcodeFaults: the words -1 and 18 at address 0. -/
theorem witness_IllegalOpcodeFaults :
    (at0 [-1] []).runState = .running ∧ (at0 [-1] []).inProgram (at0 [-1] []).ip.toInt ∧
    (∀ m ∈ Mnemonic.all, (at0 [-1] []).progWord (at0 [-1] []).ip.toInt ≠ (at0 [-1] []).cfg.opcodes.of m) ∧
    (∀ m ∈ Mnemonic.all, (at0 [18] []).progWord (at0 [18] []).ip.toInt ≠ (at0 [18] []).cfg.opcodes.of m) ∧
    ∀ m : Mnemonic, m ∈ Mnemonic.all := ⟨by decide, by decide, by decide, by decide, by intro m; cases m <;> decide⟩

/-- StepRunsDecodedInstruction: a CALL whose three words are the whole program. -/
theorem witness_StepRunsDecodedInstruction :
    (at0 [16, 0, 1] []).runState = .running ∧ (at0 [16, 0, 1] []).cfg.opcodes.wellFormed = true ∧
    (at0 [16, 0, 1] []).hasAtIp (encode (at0 [16, 0, 1] []).cfg.opcodes (.call 0 1)) := by
  refine ⟨rfl, by decide, fun j hj => ?_⟩
  have : j = 0 ∨ j = 1 ∨ j = 2 := by simp [encode, Instr.operands] at hj; omega
  rcases this with rfl | rfl | rfl <;> decide

/-- StepFollowsDispatchAlgorithm, clause by clause: an empty program; an illegal word; operand A missing;
operand B missing with A present; both present. -/
theorem witness_StepFollowsDispatchAlgorithm :
    ¬ (at0 [] []).inProgram 0 ∧
    ((at0 [18] []).inProgram 0 ∧ (at0 [18] []).cfg.opcodes.mnemonic? ((at0 [18] []).progWord 0) = none) ∧
    ((at0 [16] []).cfg.opcodes.mnemonic? ((at0 [16] []).progWord 0) = some .call ∧ ¬ (at0 [16] []).inProgram 1) ∧
    ((at0 [16, 0] []).inProgram 1 ∧ ¬ (at0 [16, 0] []).inProgram 2) ∧
    ((at0 [16, 0, 1] []).inProgram 1 ∧ (at0 [16, 0, 1] []).inProgram 2 ∧
      (Instr.call 0 1).operands[0]? = some ((at0 [16, 0, 1] []).progWord 1) ∧
      (Instr.call 0 1).operands[1]? = some ((at0 [16, 0, 1] []).progWord 2)) := by decide

/-- NoInstructionOutsideRunning: reset. -/
theorem witness_NoInstructionOutsideRunning : State.reset.runState ≠ .running := by decide

/-- RunStopsOnlyByHaltOrFault, FaultsArePrecise, ProgramNeverWritten, LifecycleTable: a step of a RUNNING core
that halts, and one that faults. -/
theorem witness_step_halts_and_faults :
    (∃ t, step (at0 [0] []) = .next t ∧ t.runState = .halted) ∧
    (∃ t, step (at0 [15] []) = .next t ∧ t.runState = .faulted) := ⟨⟨_, rfl, rfl⟩, ⟨_, rfl, rfl⟩⟩

/-- FramePointerWrittenOnlyByCallAndRet: a CALL changes fp. -/
theorem witness_FramePointerWrittenOnlyByCallAndRet :
    ∃ t, step (at0 [16, 0, 0] []) = .next t ∧ t.fp ≠ (at0 [16, 0, 0] []).fp := ⟨_, rfl, by decide⟩

/-- GlobalsWrittenOnlyByGstore, OutputOnlyAppendedByPrint: a GSTORE changes a global, a PRINT changes OUT. -/
theorem witness_globals_and_output_change :
    (∃ t, step (at0 [13, 0] [5] (globals := [0])) = .next t ∧
      t.global (0 : Nat) ≠ (at0 [13, 0] [5] (globals := [0])).global (0 : Nat)) ∧
    (∃ t, step (at0 [14] [5]) = .next t ∧ t.out ≠ (at0 [14] [5]).out) :=
  ⟨⟨_, rfl, by decide⟩, ⟨_, rfl, by decide⟩⟩

/-- NextAddressNeverWraps, StepKeepsInvariant, HostRequestsKeepInvariant: a state of the invariant that runs an
instruction. -/
theorem witness_invariant :
    (live1 [14]).Inv ∧ (live1 [14]).runState = .running ∧ fetch (live1 [14]) = .instr .print ∧
      ∃ t, step (live1 [14]) = .next t := ⟨live1_inv _ (by decide), rfl, by decide, _, rfl⟩

/-- DeadSlotsNeverMatter: two states that differ in slot 3, above sp = 0. -/
theorem witness_DeadSlotsNeverMatter :
    (at0 [14] [5]).SameLive ((at0 [14] [5]).setSlot 3 7) ∧
    (∃ t, step (at0 [14] [5]) = .next t) ∧ ∃ t, step ((at0 [14] [5]).setSlot 3 7) = .next t := by
  refine ⟨⟨rfl, fun i hi => ?_⟩, ⟨_, rfl⟩, ⟨_, rfl⟩⟩
  have e : (at0 [14] [5]).sp.toInt = 0 := by decide
  have : i = 0 := by omega
  subst this; decide

/-- PrintRule, ConditionalBranchRule, PopRule and the pops of STORE and GSTORE: sp at 0 and at -1; a condition of
1, of 0 and of 2. -/
theorem witness_pops :
    0 ≤ (at0 [] [1]).sp.toInt ∧ (at0 [] []).sp.toInt < 0 ∧ ((at0 [] [1]).slot 0).toInt = 1 ∧
    ((at0 [] [0]).slot 0).toInt = 0 ∧ ((at0 [] [2]).slot 0).toInt ≠ 1 ∧ ((at0 [] [2]).slot 0).toInt ≠ 0 := by
  decide

/-- ArithmeticRule, ComparisonRule: sp at 1 and at 0; a < b and not, a = b and not. -/
theorem witness_alu :
    1 ≤ (at0 [] [1, 2]).sp.toInt ∧ (at0 [] [1]).sp.toInt < 1 ∧
    ((at0 [] [1, 2]).slot 0).toInt < ((at0 [] [1, 2]).slot 1).toInt ∧
    ¬ ((at0 [] [2, 2]).slot 0).toInt < ((at0 [] [2, 2]).slot 1).toInt ∧
    ((at0 [] [2, 2]).slot 0).toInt = ((at0 [] [2, 2]).slot 1).toInt ∧
    ¬ ((at0 [] [1, 2]).slot 0).toInt = ((at0 [] [1, 2]).slot 1).toInt := by decide

/-- IconstRule: room for exactly one word, and none. -/
theorem witness_IconstRule :
    (at0 [] [8] (cap := 2)).sp.toInt + 1 ≤ (at0 [] [8] (cap := 2)).cfg.stackCap.toInt - 1 ∧
    (at0 [] [8] (cap := 1)).cfg.stackCap.toInt - 1 < (at0 [] [8] (cap := 1)).sp.toInt + 1 := by decide

/-- LoadRule: slot 0 with room and without, slot sp, the slot below 0 and the slot above sp. -/
theorem witness_LoadRule :
    (∀ s ∈ [at0 [] [4, 9], at0 [] [4, 9] (cap := 2)],
      0 ≤ s.fp.toInt + (1 : Word).toInt ∧ s.fp.toInt + (1 : Word).toInt ≤ s.sp.toInt ∧
      s.fp.toInt + (2 : Word).toInt = s.sp.toInt ∧ s.fp.toInt + (0 : Word).toInt < 0 ∧
      s.sp.toInt < s.fp.toInt + (3 : Word).toInt) ∧
    (at0 [] [4, 9]).sp.toInt + 1 ≤ (at0 [] [4, 9]).cfg.stackCap.toInt - 1 ∧
    (at0 [] [4, 9] (cap := 2)).cfg.stackCap.toInt - 1 < (at0 [] [4, 9] (cap := 2)).sp.toInt + 1 := by decide

/-- GloadRule, GstoreRule: the least and the greatest index, one below and one above; room and none. -/
theorem witness_global_index :
    (0 : Word).toInt ≤ (at0 [] [1] (globals := [3, 0])).nglobals.toInt - 1 ∧
    (1 : Word).toInt = (at0 [] [1] (globals := [3, 0])).nglobals.toInt - 1 ∧ (-1 : Word).toInt < 0 ∧
    (at0 [] [1] (globals := [3, 0])).nglobals.toInt - 1 < (2 : Word).toInt ∧
    (at0 [] [1] (globals := [3, 0])).sp.toInt + 1 ≤ (at0 [] [1] (globals := [3, 0])).cfg.stackCap.toInt - 1 ∧
    (at0 [] [1] (globals := [3]) (cap := 1)).cfg.stackCap.toInt - 1 <
      (at0 [] [1] (globals := [3]) (cap := 1)).sp.toInt + 1 := by decide

/-- StoreRule: sp = 1 with the slot at 0 = sp - 1, below 0 and at sp. -/
theorem witness_StoreRule :
    0 ≤ (at0 [] [0, 42]).sp.toInt ∧ 0 ≤ (at0 [] [0, 42]).fp.toInt + (1 : Word).toInt ∧
    (at0 [] [0, 42]).fp.toInt + (1 : Word).toInt = (at0 [] [0, 42]).sp.toInt - 1 ∧
    (at0 [] [0, 42]).fp.toInt + (0 : Word).toInt < 0 ∧
    (at0 [] [0, 42]).sp.toInt - 1 < (at0 [] [0, 42]).fp.toInt + (2 : Word).toInt := by decide

/-- CallRule: an empty stack, room for exactly three words, and for two. -/
theorem witness_CallRule :
    -1 ≤ (at0 [] [] (cap := 3)).sp.toInt ∧
    (at0 [] [] (cap := 3)).sp.toInt + 3 = (at0 [] [] (cap := 3)).cfg.stackCap.toInt - 1 ∧
    (at0 [] [] (cap := 2)).cfg.stackCap.toInt - 1 < (at0 [] [] (cap := 2)).sp.toInt + 3 := by decide

/-- RetRule, clause by clause: no word; fp = -1; fp above sp - 1; n = -1; n above fp - 2; n = fp - 2. -/
theorem witness_RetRule :
    (at0 [] []).sp.toInt < 0 ∧ (0 ≤ (at0 [] [7]).sp.toInt ∧ (at0 [] [7]).fp.toInt < 2) ∧
    (at0 [] [35, 1, -1, 33] (fp := 3)).sp.toInt - 1 < (at0 [] [35, 1, -1, 33] (fp := 3)).fp.toInt ∧
    (2 ≤ (at0 [] [-1, -1, 33, 8] (fp := 2)).fp.toInt ∧
      (at0 [] [-1, -1, 33, 8] (fp := 2)).fp.toInt ≤ (at0 [] [-1, -1, 33, 8] (fp := 2)).sp.toInt - 1 ∧
      ((at0 [] [-1, -1, 33, 8] (fp := 2)).slot 0).toInt < 0) ∧
    (at0 [] [35, 2, -1, 33, 8] (fp := 3)).fp.toInt - 2 < ((at0 [] [35, 2, -1, 33, 8] (fp := 3)).slot 1).toInt ∧
    ((at0 [] [35, 1, -1, 33, 8] (fp := 3)).slot 1).toInt = (at0 [] [35, 1, -1, 33, 8] (fp := 3)).fp.toInt - 2 := by
  decide

/-- CallFrameLayout: one argument on a stack that holds just it. -/
theorem witness_CallFrameLayout :
    (live1 [16, 0, 1]).Inv ∧ (live1 [16, 0, 1]).runState = .running ∧ (1 : Word).toInt ≤ (live1 [16, 0, 1]).sp.toInt + 1 ∧
    (live1 [16, 0, 1]).sp.toInt + 3 ≤ (live1 [16, 0, 1]).cfg.stackCap.toInt - 1 ∧
    ∃ t, exec (.call 0 1) (live1 [16, 0, 1]) = .next t := ⟨live1_inv _ (by decide), rfl, by decide, by decide, _, rfl⟩

/-- CallRetRoundTrip: CALL 0, 1 on [35], and the callee with one word pushed. -/
theorem witness_CallRetRoundTrip :
    ∃ s t u : State, 0 ≤ (1 : Word).toInt ∧ s.sp.toInt = -1 + (1 : Word).toInt ∧
      s.sp.toInt + 3 ≤ s.cfg.stackCap.toInt - 1 ∧ exec (.call 0 1) s = .next t ∧ u.fp = t.fp ∧
      u.fp.toInt + 1 ≤ u.sp.toInt ∧ ∀ j : Int, t.fp.toInt - 2 ≤ j → j ≤ t.fp.toInt → u.slot j = t.slot j := by
  let t : State := { at0 [] [35] with
    ip := 0, sp := 3, fp := 3, stack := [(0, 35), (1, 1), (2, -1), (3, 3)] }
  refine ⟨at0 [] [35], t, t.push 7, by decide, by decide, by decide, rfl, rfl, by decide, fun j h1 h2 => ?_⟩
  have e : t.fp.toInt = 3 := by decide
  have : j = 1 ∨ j = 2 ∨ j = 3 := by omega
  rcases this with rfl | rfl | rfl <;> decide

/-- GstoreThenGload: the greatest index of two globals. -/
theorem witness_GstoreThenGload :
    (live1 []).Inv ∧ (live1 []).runState = .running ∧ 0 ≤ (live1 []).sp.toInt ∧ 0 ≤ (1 : Word).toInt ∧
    (1 : Word).toInt ≤ (live1 []).nglobals.toInt - 1 :=
  ⟨live1_inv _ (by decide), rfl, by decide, by decide, by decide⟩

/-- SelfBranchRunsForever: program P4f of spec/95. -/
theorem witness_SelfBranchRunsForever :
    (at0 [6, 0] []).runState = .running ∧ (at0 [6, 0] []).cfg.opcodes.wellFormed = true ∧
    (at0 [6, 0] []).hasAtIp (encode (at0 [6, 0] []).cfg.opcodes (.br (at0 [6, 0] []).ip)) := by
  refine ⟨rfl, by decide, fun j hj => ?_⟩
  have : j = 0 ∨ j = 1 := by simp [encode, Instr.operands] at hj; omega
  rcases this with rfl | rfl <;> decide

/-- WrapIsTheResidueInRange: 2^31 and its residue. -/
theorem witness_WrapIsTheResidueInRange :
    (-2147483648 : Int) ≤ -2147483648 ∧ ((-2147483648 : Int) - 2147483648) % 4294967296 = 0 := by decide

/-- EqualReadsGiveEqualGlobals: two canonical files. -/
theorem witness_EqualReadsGiveEqualGlobals : Memory.wf [(0, 3), (2, 9)] ∧ Memory.wf (Memory.ofCells [(2, 9), (0, 3)]) := by
  decide

/-- InitialiseRule, LifecycleTable, InspectRule, UnboundRegistersNeverRead: UNBOUND with a count of 0, of -1, of
GLOBALS_MAX and above it; READY; RUNNING. -/
theorem witness_host :
    State.reset.runState = .unbound ∧ State.reset.cfg.globalsMax.toInt < 2147483648 ∧
    State.reset.cfg.globalsMax.toInt = 2147483647 ∧
    ({ State.reset with runState := .ready } : State).runState = .ready ∧
    ({ State.reset with ip := 5 } : State).cfg = State.reset.cfg := by decide

/-- InspectRule: a HALTED core with two globals, sp = 1 and 1000 slots: the last global and the first that does
not exist, the top slot, the first and the last dead slot, the first slot that does not exist. -/
theorem witness_InspectRule :
    let s : State := { State.reset with runState := .halted, nglobals := 2, sp := 1 }
    s.runState = .halted ∧ ((1 : Nat) : Int) < s.nglobals.toInt ∧ s.nglobals.toInt ≤ (2 : Nat) ∧
    ((1 : Nat) : Int) ≤ s.sp.toInt ∧ s.sp.toInt < (2 : Nat) ∧ ((999 : Nat) : Int) < s.cfg.stackCap.toInt ∧
    s.cfg.stackCap.toInt ≤ (1000 : Nat) := by decide

/-- R235: what Inspect in pieces says at those places of a core that holds 7 in G[1] and 9 in S[1]. -/
theorem test_inspect_pieces :
    let s : State := { State.reset with
      runState := .halted, nglobals := 2, sp := 1, stack := [(0, 8), (1, 9)], globals := [(1, 7)] }
    (serve (.readGlobal 1) s).1 = .word 7 ∧ (serve (.readGlobal 2) s).1 = .noSuchPlace ∧
    (serve (.readSlot 1) s).1 = .word 9 ∧ (serve (.readSlot 1000) s).1 = .noSuchPlace ∧
    (serve (.readRegister .sp) s).1 = .word 1 ∧ (serve (.readRegister .faultPc) s).1 = .word 0 := by decide

/-- RefusedRequests: a Run in UNBOUND; RUNNING; HALTED, which is neither UNBOUND nor READY. -/
theorem witness_RefusedRequests : (serve .run State.reset).1 = .refused ∧ (at0 [] []).runState = .running ∧
    ({ State.reset with runState := .halted } : State).runState ≠ .ready := by decide

/-- RunResultIsUnique: HALT, run for one and for two steps. -/
theorem witness_RunResultIsUnique : (runSteps 1 (at0 [0] [])).ended ∧ (runSteps 2 (at0 [0] [])).ended :=
  ⟨.inl rfl, .inl rfl⟩

/-- PlacedWordIsRun: CALL 20, 1 at reset. -/
theorem witness_PlacedWordIsRun :
    State.reset.cfg.opcodes = OpcodeMap.default ∧ State.reset.prog.length ≤ 2147483647 ∧
    decodeTableWord 96 0x000000010000001400000010 = some (.call 20 1) := by decide

end Sys2Proof.Machine.Tests
end

section
/-! The wrapping of an integer to a word (R10, R11). -/

namespace Sys2Proof.Machine

/-- Two integers wrap to the same word exactly when they are congruent modulo 2^32. -/
theorem wrapW_eq_wrapW_iff {x y : Int} : wrapW x = wrapW y ↔ (y - x) % 4294967296 = 0 := by
  unfold wrapW
  rw [← BitVec.toNat_inj, BitVec.toNat_ofInt, BitVec.toNat_ofInt]
  omega

/-- Settles O40: an integer in range is its own wrapping, and congruent integers wrap to the same word. -/
theorem wrapIsTheResidueInRange : Obligations.WrapIsTheResidueInRange := by
  intro x y
  constructor
  · rintro ⟨lo, hi, congruent⟩
    calc y = (wrapW y).toInt := (toInt_wrapW lo (by omega)).symm
      _ = (wrapW x).toInt := by rw [wrapW_eq_wrapW_iff.mpr congruent]
  · rintro rfl
    have hi := toInt_high (wrapW x)
    exact ⟨toInt_low _, by omega, wrapW_eq_wrapW_iff.mp (wrapW_toInt _).symm⟩

end Sys2Proof.Machine
end

section
/-! The invariant of CORE (R23, R26 to R28, R231): each operation keeps it, so every instruction and every
step does. -/

namespace Sys2Proof.Machine

section
variable {s : State}

theorem State.fits_push {n : Nat} (v : Word) (h : s.fits (n + 1)) : (s.push v).fits n := by
  have room : s.fits 1 := by omega
  have sp : (s.push v).sp.toInt = s.sp.toInt + 1 := sp_add_toInt s 1 room
  show (s.push v).sp.toInt + n ≤ s.cfg.stackCap.toInt - 1
  omega

/-! ### The operations -/

theorem State.Inv.setIp (h : s.Inv) (v : Word) : (s.setIp v).Inv :=
  { h with bound := fun hb => { h.bound hb with } }

theorem State.Inv.setFp (h : s.Inv) (v : Word) : (s.setFp v).Inv :=
  { h with bound := fun hb => { h.bound hb with } }

theorem State.Inv.emit (h : s.Inv) (v : Word) : (s.emit v).Inv :=
  { h with bound := fun hb => { h.bound hb with } }

theorem State.Inv.advance {t : State} (h : t.Inv) (n : Nat) : (s.advance n t).Inv := h.setIp _

theorem State.Inv.halt (h : s.Inv) (running : s.runState = .running) : (s.setRunState .halted).Inv :=
  { h with bound := fun _ =>
    have b : s.Bound := h.bound (by simp [running])
    { b with cause := by simpa [running] using b.cause } }

/-- A fault of RUNNING records its cause (R204). -/
theorem State.Inv.takeFault {c : Cause} (h : s.Inv) (running : s.runState = .running) (hc : c ≠ .none)
    (v : Word) : (takeFault c v s).Inv :=
  { h with bound := fun _ =>
    { h.bound (by simp [running]) with cause := by simp [hc] } }

theorem State.Inv.push (h : s.Inv) (room : s.fits 1) (v : Word) : (s.push v).Inv :=
  { h with
    stack_rising := Memory.rising_put h.stack_rising _ _
    bound := fun hb => by
      have b := h.bound hb
      have low := b.sp_low
      have sp : (s.push v).sp.toInt = s.sp.toInt + 1 := sp_add_toInt s 1 room
      refine { b with sp_low := by omega, sp_high := by rw [sp]; exact room, stack_live := fun i => ?_ }
      rw [sp, State.push_stack, Memory.read?_put]
      split
      · simp only [Option.isSome_some, true_iff]; omega
      · rw [b.stack_live i]; omega }

theorem State.Inv.lowerSp {i : Int} (h : s.Inv) (lo : -1 ≤ i) (hi : i ≤ s.sp.toInt) : (s.lowerSp i).Inv :=
  { h with
    stack_rising := Memory.rising_keepBelow h.stack_rising _
    bound := fun hb => by
      have b := h.bound hb
      have high : i ≤ s.cfg.stackCap.toInt - 1 := hi.trans b.sp_high
      have sp : (s.lowerSp i).sp.toInt = i := toInt_wrapW (by omega) (by have := toInt_high s.sp; omega)
      refine { b with sp_low := by omega, sp_high := by rw [sp]; exact high, stack_live := fun j => ?_ }
      rw [sp, State.lowerSp_stack, Memory.read?_keepBelow]
      split
      · rw [b.stack_live j]; omega
      · simp only [Option.isSome_none, Bool.false_eq_true, false_iff]; omega }

theorem State.Inv.pop (h : s.Inv) (nonempty : s.holds 1) : s.pop.Inv := h.lowerSp (by omega) (by omega)

/-- A write of a live slot lists no new slot. -/
theorem State.Inv.setSlot {i : Int} (h : s.Inv) (lo : 0 ≤ i) (hi : i ≤ s.sp.toInt) (v : Word) :
    (s.setSlot i v).Inv :=
  { h with
    stack_rising := Memory.rising_put h.stack_rising _ _
    bound := fun hb => by
      have b := h.bound hb
      refine { b with stack_live := fun j => ?_ }
      rw [State.setSlot_stack, State.setSlot_sp, Memory.read?_put]
      split
      · simp only [Option.isSome_some, true_iff]; omega
      · exact b.stack_live j }

theorem State.Inv.setGlobal {k : Word} (h : s.Inv) (hk : s.isGlobal k) (v : Word) :
    (s.setGlobal k.toInt v).Inv :=
  { h with
    globals_wf := Memory.wf_writeZero h.globals_wf _ _
    bound := fun hb => by
      refine { h.bound hb with globals_fit := fun c hc => ?_ }
      obtain ⟨low, high⟩ := hk
      rcases Memory.mem_writeZero hc with rfl | hc
      · simp only [State.setGlobal_nglobals]; omega
      · exact (h.bound hb).globals_fit c hc }

/-- A result that replaces the words from slot `i` on (R120, R182). -/
theorem State.Inv.lowerSp_setSlot {i : Int} (h : s.Inv) (lo : 0 ≤ i) (hi : i ≤ s.sp.toInt) (v : Word) :
    ((s.lowerSp i).setSlot i v).Inv := by
  have := toInt_high s.sp
  have sp : (s.lowerSp i).sp.toInt = i := toInt_wrapW (by omega) (by omega)
  exact (h.lowerSp (by omega) hi).setSlot lo sp.ge v

/-! ### Instructions and steps -/

theorem effect_inv {i : Instr} (h : s.Inv) (running : s.runState = .running) (hc : checks i s) :
    (effect i s).Inv := by
  cases i with
  | halt => exact (h.halt running).advance 0
  | iadd | isub | imul | ilt | ieq =>
    have two : s.holds 2 := hc
    exact (h.lowerSp_setSlot (by omega) (by omega) _).advance 0
  | br => exact h.setIp _
  | brt | brf => exact (h.pop hc).setIp _
  | iconst => exact (h.push hc _).advance 1
  | load | gload => exact (h.push hc.2 _).advance 1
  | store offset =>
    obtain ⟨nonempty, low, high⟩ := hc
    have sp := sp_pred_toInt s (by omega)
    exact ((h.pop nonempty).setSlot low (by rw [State.pop_sp, sp]; exact high) _).advance 1
  | gstore => exact ((h.pop hc.1).setGlobal hc.2 _).advance 1
  | print => exact ((h.pop hc).emit _).advance 0
  | pop => exact (h.pop hc).advance 0
  | call target argc =>
    have three : s.fits 3 := hc
    have two := State.fits_push argc three
    have one := State.fits_push s.fp two
    exact ((((h.push (by omega) _).push (by omega) _).push one _).setFp _).setIp _
  | ret =>
    obtain ⟨_, _, frame, count_low, count_high⟩ := hc
    exact ((h.lowerSp_setSlot (by omega) (by omega) _).setIp _).setFp _

end

/-- Settles O19: each of the four ends of a step in RUNNING keeps the invariant. -/
theorem stepKeepsInvariant : Obligations.StepKeepsInvariant := by
  intro s t h hs
  by_cases running : s.runState = .running
  · rcases step_running_cases running hs with
      ⟨i, _, hc, rfl⟩ | ⟨i, c, v, _, _, ⟨hc, _, _⟩, rfl⟩ | ⟨w, _, rfl⟩ | ⟨a, _, rfl⟩
    · exact effect_inv h running hc
    · exact h.takeFault running hc v
    · exact (h.takeFault running (by decide) w).setIp _
    · exact h.takeFault running (by decide) _
  · rw [step_idle running] at hs
    cases hs
    exact h

end Sys2Proof.Machine
end

section
/-! Dead slots (R27): two states that differ in them only still do after each operation, so no instruction's
next state depends on one. -/

namespace Sys2Proof.Machine

namespace State.SameLive

variable {s t : State}

/-- What does not depend on the stack is the same in both. -/
theorem reads_eq {α : Type} {f : State → α} (h : s.SameLive t)
    (hf : ∀ u : State, f { u with stack := [] } = f u) : f s = f t := by rw [← hf s, h.1, hf t]

theorem sp_eq (h : s.SameLive t) : s.sp = t.sp := h.reads_eq fun _ => rfl
theorem fp_eq (h : s.SameLive t) : s.fp = t.fp := h.reads_eq fun _ => rfl
theorem cfg_eq (h : s.SameLive t) : s.cfg = t.cfg := h.reads_eq fun _ => rfl
theorem nglobals_eq (h : s.SameLive t) : s.nglobals = t.nglobals := h.reads_eq fun _ => rfl
theorem draws_eq (h : s.SameLive t) : s.draws = t.draws := h.reads_eq fun _ => rfl
theorem nextIp_eq (h : s.SameLive t) (n : Nat) : s.nextIp n = t.nextIp n :=
  h.reads_eq (f := (State.nextIp · n)) fun _ => rfl
theorem global_eq (h : s.SameLive t) (k : Int) : s.global k = t.global k :=
  h.reads_eq (f := (State.global · k)) fun _ => rfl

theorem slot_eq {i : Int} (h : s.SameLive t) (lo : 0 ≤ i) (hi : i ≤ s.sp.toInt) : s.slot i = t.slot i :=
  State.slot_congr h.draws_eq (h.2 i.toNat (by omega))

theorem top_eq (h : s.SameLive t) (nonempty : s.holds 1) : s.top = t.top := by
  unfold State.top
  rw [h.slot_eq (by omega) le_rfl, h.sp_eq]

/-! ### The operations -/

theorem setIp (h : s.SameLive t) (v : Word) : (s.setIp v).SameLive (t.setIp v) :=
  ⟨congrArg (State.setIp v) h.1, h.2⟩

theorem setFp (h : s.SameLive t) (v : Word) : (s.setFp v).SameLive (t.setFp v) :=
  ⟨congrArg (State.setFp v) h.1, h.2⟩

theorem setRunState (h : s.SameLive t) (r : RunState) : (s.setRunState r).SameLive (t.setRunState r) :=
  ⟨congrArg (State.setRunState r) h.1, h.2⟩

theorem emit (h : s.SameLive t) (v : Word) : (s.emit v).SameLive (t.emit v) :=
  ⟨congrArg (State.emit v) h.1, h.2⟩

theorem setGlobal (h : s.SameLive t) (k : Int) (v : Word) : (s.setGlobal k v).SameLive (t.setGlobal k v) :=
  ⟨congrArg (State.setGlobal k v) h.1, h.2⟩

theorem takeFault (h : s.SameLive t) (c : Cause) (v : Word) : (takeFault c v s).SameLive (takeFault c v t) :=
  ⟨congrArg (Machine.takeFault c v) h.1, h.2⟩

theorem setSlot (h : s.SameLive t) (i : Int) (v : Word) : (s.setSlot i v).SameLive (t.setSlot i v) := by
  refine ⟨h.1, fun j hj => ?_⟩
  simp only [State.setSlot_stack, Memory.read?_put, h.2 j hj]

theorem lowerSp {i : Int} (h : s.SameLive t) (hi : i ≤ s.sp.toInt) : (s.lowerSp i).SameLive (t.lowerSp i) := by
  refine ⟨congrArg (fun u : State => { u.lowerSp i with stack := [] }) h.1, fun j _ => ?_⟩
  simp only [State.lowerSp_stack, Memory.read?_keepBelow]
  split
  · exact h.2 j (by omega)
  · rfl

theorem pop (h : s.SameLive t) : s.pop.SameLive t.pop := by
  unfold State.pop
  rw [← h.sp_eq]
  exact h.lowerSp (by omega)

/-- The slot a push writes is the only one it makes live. -/
theorem push (h : s.SameLive t) (room : s.fits 1) (v : Word) : (s.push v).SameLive (t.push v) := by
  refine ⟨congrArg (fun u : State => { u.push v with stack := [] }) h.1, fun j hj => ?_⟩
  have sp : (s.push v).sp.toInt = s.sp.toInt + 1 := sp_add_toInt s 1 room
  simp only [State.push_stack, Memory.read?_put, ← h.sp_eq]
  split
  · rfl
  · exact h.2 j (by omega)

end State.SameLive

/-! ### Outcomes -/

/-- Where both outcomes are next states, these differ in dead slots only. -/
def OutcomesSameLive (r r' : Result) : Prop :=
  ∀ s t : State, r = .next s → r' = .next t → s.SameLive t

namespace OutcomesSameLive

theorem next {s t : State} (h : s.SameLive t) : OutcomesSameLive (.next s) (.next t) := by
  rintro _ _ ⟨⟩ ⟨⟩
  exact h

theorem raise {s t : State} {c : Cause} {v w : Word} (h : s.SameLive t) (hv : v = w) :
    OutcomesSameLive (raise c v s) (raise c w t) := hv ▸ next (h.takeFault c v)

/-- A check that reads the same in both states. -/
theorem ite {p q : Prop} [Decidable p] [Decidable q] {a b a' b' : Result} (hpq : p ↔ q)
    (pass : p → OutcomesSameLive a a') (fail : OutcomesSameLive b b') :
    OutcomesSameLive (if p then a else b) (if q then a' else b') := by
  by_cases hp : p
  · rw [if_pos hp, if_pos (hpq.mp hp)]; exact pass hp
  · rw [if_neg hp, if_neg (mt hpq.mpr hp)]; exact fail

end OutcomesSameLive

section
variable {s t : State}

theorem aluOp_sameLive (op : Word → Word → Word) (h : s.SameLive t) :
    OutcomesSameLive (aluOp op s) (aluOp op t) := by
  refine .ite (by rw [State.holds, h.sp_eq]) (fun two => .next ?_) (.raise h h.sp_eq)
  unfold State.advance
  rw [← h.nextIp_eq, ← h.sp_eq, ← h.slot_eq (by omega) (by omega), ← h.top_eq (by omega)]
  exact ((h.lowerSp (by omega)).setSlot _ _).setIp _

theorem branchOn_sameLive (expected target : Word) (h : s.SameLive t) :
    OutcomesSameLive (branchOn expected target s) (branchOn expected target t) := by
  refine .ite (by rw [State.holds, h.sp_eq]) (fun one => .next ?_) (.raise h h.sp_eq)
  rw [← h.nextIp_eq, ← h.top_eq one]
  exact h.pop.setIp _

theorem pushResult_sameLive {v w : Word} (h : s.SameLive t) (hv : v = w) :
    OutcomesSameLive (pushResult v s) (pushResult w t) := by
  subst hv
  refine .ite (by rw [State.fits, h.sp_eq, h.cfg_eq]) (fun room => .next ?_) (.raise h h.sp_eq)
  unfold State.advance
  rw [← h.nextIp_eq]
  exact (h.push room v).setIp _

theorem execLoad_sameLive (offset : Word) (h : s.SameLive t) :
    OutcomesSameLive (execLoad offset s) (execLoad offset t) := by
  have idx : s.frameIndex offset = t.frameIndex offset := by rw [State.frameIndex, h.fp_eq]
  refine .ite (by rw [idx, h.sp_eq]) (fun live => pushResult_sameLive h ?_) (.raise h rfl)
  rw [← idx, h.slot_eq live.1 live.2]

theorem execGload_sameLive (index : Word) (h : s.SameLive t) :
    OutcomesSameLive (execGload index s) (execGload index t) :=
  .ite (by rw [State.isGlobal, h.nglobals_eq]) (fun _ => pushResult_sameLive h (h.global_eq _)) (.raise h rfl)

theorem execStore_sameLive (offset : Word) (h : s.SameLive t) :
    OutcomesSameLive (execStore offset s) (execStore offset t) := by
  have idx : s.frameIndex offset = t.frameIndex offset := by rw [State.frameIndex, h.fp_eq]
  refine .ite (by rw [State.holds, h.sp_eq])
    (fun one => .ite (by rw [idx, h.sp_eq]) (fun _ => .next ?_) (.raise h rfl)) (.raise h h.sp_eq)
  unfold State.advance
  rw [← h.nextIp_eq, ← idx, ← h.top_eq one]
  exact (h.pop.setSlot _ _).setIp _

theorem execGstore_sameLive (index : Word) (h : s.SameLive t) :
    OutcomesSameLive (execGstore index s) (execGstore index t) := by
  refine .ite (by rw [State.holds, h.sp_eq])
    (fun one => .ite (by rw [State.isGlobal, h.nglobals_eq]) (fun _ => .next ?_) (.raise h rfl))
    (.raise h h.sp_eq)
  unfold State.advance
  rw [← h.nextIp_eq, ← h.top_eq one]
  exact (h.pop.setGlobal _ _).setIp _

theorem execPrint_sameLive (h : s.SameLive t) : OutcomesSameLive (execPrint s) (execPrint t) := by
  refine .ite (by rw [State.holds, h.sp_eq]) (fun one => .next ?_) (.raise h h.sp_eq)
  unfold State.advance
  rw [← h.nextIp_eq, ← h.top_eq one]
  exact (h.pop.emit _).setIp _

theorem execPop_sameLive (h : s.SameLive t) : OutcomesSameLive (execPop s) (execPop t) := by
  refine .ite (by rw [State.holds, h.sp_eq]) (fun one => .next ?_) (.raise h h.sp_eq)
  unfold State.advance
  rw [← h.nextIp_eq]
  exact h.pop.setIp _

theorem execCall_sameLive (target argc : Word) (h : s.SameLive t) :
    OutcomesSameLive (execCall target argc s) (execCall target argc t) := by
  refine .ite (by rw [State.fits, h.sp_eq, h.cfg_eq]) (fun three => .next ?_) (.raise h h.sp_eq)
  have two := State.fits_push argc three
  have one := State.fits_push s.fp two
  rw [← h.nextIp_eq, ← h.fp_eq, ← h.sp_eq]
  exact ((((h.push (by omega) _).push (by omega) _).push one _).setFp _).setIp _

/-- Where RET's checks pass, the frame it reads lies below the word it returns. -/
theorem unwindFrame_sameLive (h : s.SameLive t) (nonempty : s.holds 1) (base : 2 ≤ s.fp.toInt)
    (frame : s.fp.toInt ≤ s.sp.toInt - 1) (count : 0 ≤ (s.slot (s.fp.toInt - 2)).toInt) :
    (unwindFrame s).SameLive (unwindFrame t) := by
  simp only [unwindFrame]
  rw [← h.fp_eq, ← h.slot_eq (i := s.fp.toInt) (by omega) (by omega),
    ← h.slot_eq (i := s.fp.toInt - 1) (by omega) (by omega),
    ← h.slot_eq (i := s.fp.toInt - 2) (by omega) (by omega), ← h.top_eq nonempty]
  exact (((h.lowerSp (by omega)).setSlot _ _).setIp _).setFp _

theorem execRet_sameLive (h : s.SameLive t) : OutcomesSameLive (execRet s) (execRet t) := by
  refine .ite (by rw [State.holds, h.sp_eq]) (fun nonempty => ?_) (.raise h h.sp_eq)
  refine .ite (by rw [h.fp_eq]) (fun base => ?_) (.raise h h.fp_eq)
  refine .ite (by rw [h.fp_eq, h.sp_eq]) (fun frame => ?_) (.raise h h.fp_eq)
  have count : s.slot (s.fp.toInt - 2) = t.slot (t.fp.toInt - 2) := by
    rw [h.slot_eq (by omega) (by omega), h.fp_eq]
  refine .ite (by rw [count]) (fun low => ?_) (.raise h count)
  exact .ite (by rw [count, h.fp_eq]) (fun _ => .next (unwindFrame_sameLive h nonempty base frame low))
    (.raise h count)

theorem exec_sameLive (i : Instr) (h : s.SameLive t) : OutcomesSameLive (exec i s) (exec i t) := by
  cases i with
  | halt =>
    refine .next ?_
    unfold State.advance
    rw [← h.nextIp_eq]
    exact (h.setRunState _).setIp _
  | iadd => exact aluOp_sameLive (fun a b => wrapW (a.toInt + b.toInt)) h
  | isub => exact aluOp_sameLive (fun a b => wrapW (a.toInt - b.toInt)) h
  | imul => exact aluOp_sameLive (fun a b => wrapW (a.toInt * b.toInt)) h
  | ilt => exact aluOp_sameLive lessThan h
  | ieq => exact aluOp_sameLive equalTo h
  | br target => exact .next (h.setIp target)
  | brt | brf => exact branchOn_sameLive _ _ h
  | iconst => exact pushResult_sameLive h rfl
  | load offset => exact execLoad_sameLive offset h
  | gload index => exact execGload_sameLive index h
  | store offset => exact execStore_sameLive offset h
  | gstore index => exact execGstore_sameLive index h
  | print => exact execPrint_sameLive h
  | pop => exact execPop_sameLive h
  | call target argc => exact execCall_sameLive target argc h
  | ret => exact execRet_sameLive h

end

theorem window_withStack (s : State) (m : Memory) (a : Int) (n : Nat) :
    State.window { s with stack := m } a n = s.window a n := by
  induction n generalizing a with
  | zero => rfl
  | succ n ih => simp only [State.window, ih (a + 1)]; rfl

/-- Fetching reads no stack slot (R80). -/
theorem fetch_withStack (s : State) (m : Memory) : fetch { s with stack := m } = fetch s := by
  simp only [fetch, window_withStack]

theorem step_sameLive {s t : State} (h : s.SameLive t) : OutcomesSameLive (step s) (step t) := by
  have state : s.runState = t.runState := h.reads_eq fun _ => rfl
  by_cases running : s.runState = .running
  · have same : fetch s = fetch t := h.reads_eq fun u => fetch_withStack u []
    have ip : s.ip = t.ip := h.reads_eq fun _ => rfl
    unfold step
    rw [← state, running, ← same]
    cases fetch s with
    | instr i => exact exec_sameLive i h
    | invalidOpcode w =>
      simp only [raiseInvalidOpcode, ← ip]
      exact .next ((h.takeFault _ w).setIp _)
    | outOfRange a => exact .raise h rfl
  · rw [step_idle running, step_idle (state ▸ running)]
    exact .next h

/-- Settles O21: no operation of a step reads a dead slot, so neither does the step. -/
theorem deadSlotsNeverMatter : Obligations.DeadSlotsNeverMatter :=
  fun _ _ s' t' h hs ht => step_sameLive h s' t' hs ht

end Sys2Proof.Machine
end

section
/-! Which instructions write OUT, fp and G (R24, R26, R30, R65, R185). -/

namespace Sys2Proof.Machine

theorem effect_out {i : Instr} (s : State) (h : i ≠ .print) : (effect i s).out = s.out := by
  cases i with
  | print => exact absurd rfl h
  | _ => rfl

theorem effect_fp {i : Instr} (s : State) (call : ∀ target argc, i ≠ .call target argc) (ret : i ≠ .ret) :
    (effect i s).fp = s.fp := by
  cases i with
  | call target argc => exact absurd rfl (call target argc)
  | ret => exact absurd rfl ret
  | _ => rfl

theorem effect_globals {i : Instr} (s : State) (h : ∀ index, i ≠ .gstore index) :
    (effect i s).globals = s.globals := by
  cases i with
  | gstore index => exact absurd rfl (h index)
  | _ => rfl

/-- A step that changes what no fault writes is the effect of a fetched instruction (R202, R204). -/
theorem effect_of_changes {α : Type} (f : State → α) {s t : State} (hs : step s = .next t) (changed : f t ≠ f s)
    (fault : ∀ c v ip, f ((takeFault c v s).setIp ip) = f s) :
    ∃ i, fetch s = .instr i ∧ checks i s ∧ t = effect i s := by
  have running : s.runState = .running := by
    by_contra idle
    rw [step_idle idle] at hs
    cases hs
    exact changed rfl
  rcases step_running_cases running hs with effect | ⟨_, c, v, _, _, _, rfl⟩ | ⟨w, _, rfl⟩ | ⟨a, _, rfl⟩
  · exact effect
  · exact absurd (fault c v s.ip) changed
  · exact absurd (fault _ w _) changed
  · exact absurd (fault _ (wrapW a) s.ip) changed

/-- Settles O14: PRINT's effect is the only one that writes OUT. -/
theorem outputOnlyAppendedByPrint : Obligations.OutputOnlyAppendedByPrint := by
  intro s t hs
  refine or_iff_not_imp_left.mpr fun changed => ?_
  obtain ⟨i, hf, _, rfl⟩ := effect_of_changes State.out hs changed fun _ _ _ => rfl
  obtain rfl : i = .print := by
    by_contra other
    exact changed (effect_out s other)
  exact ⟨hf, rfl⟩

/-- Settles O15: the effects of CALL and RET are the only ones that write fp. -/
theorem framePointerWrittenOnlyByCallAndRet : Obligations.FramePointerWrittenOnlyByCallAndRet := by
  intro s t _ hs changed
  obtain ⟨i, hf, _, rfl⟩ := effect_of_changes State.fp hs changed fun _ _ _ => rfl
  by_contra other
  obtain ⟨call, ret⟩ := not_or.mp other
  exact changed (effect_fp s (fun target argc hi => call ⟨target, argc, hi ▸ hf⟩) fun hi => ret (hi ▸ hf))

/-- Settles O16: GSTORE's effect is the only one that writes G, and it writes the slot of its index. -/
theorem globalsWrittenOnlyByGstore : Obligations.GlobalsWrittenOnlyByGstore := by
  intro s t k _ hs changed
  obtain ⟨i, hf, hc, rfl⟩ := effect_of_changes (State.global · k) hs changed fun _ _ _ => rfl
  obtain ⟨index, rfl⟩ : ∃ index, i = .gstore index := by
    by_contra other
    exact changed (congrArg (Memory.readZero · k) (effect_globals s (not_exists.mp other)))
  obtain ⟨_, low, _⟩ := hc
  have read : (effect (.gstore index) s).global k = if (k : Int) = index.toInt then s.top else s.global k :=
    State.global_setGlobal s.top s.pop low k.cast_nonneg
  by_cases same : (k : Int) = index.toInt
  · exact ⟨index, hf, same.symm, read.trans (if_pos same)⟩
  · exact absurd (read.trans (if_neg same)) changed

end Sys2Proof.Machine
end

section
/-! Where a fetched instruction ends (R22, R71, R80): its words lie inside the program. -/

namespace Sys2Proof

theorem Instr.operands_length (i : Instr) : i.operands.length = i.mnemonic.arity := by
  cases i <;> rfl

theorem decodeOne_eq_ok {k : Word → Instr} {ws rest : List Word} {i : Instr} (h : decodeOne k ws = .ok i rest) :
    ∃ a, i = k a ∧ ws = a :: rest := by
  cases ws with
  | nil => cases h
  | cons a ws => cases h; exact ⟨a, rfl, rfl⟩

theorem decodeTwo_eq_ok {k : Word → Word → Instr} {ws rest : List Word} {i : Instr}
    (h : decodeTwo k ws = .ok i rest) : ∃ a b, i = k a b ∧ ws = a :: b :: rest := by
  match ws, h with
  | a :: b :: ws, h => cases h; exact ⟨a, b, rfl, rfl⟩

/-- The operand words decoded are those the instruction is encoded with (R71, R72). -/
theorem eq_of_decodeOperands {m : Mnemonic} {ws rest : List Word} {i : Instr}
    (h : decodeOperands m ws = .ok i rest) : i.mnemonic = m ∧ ws = i.operands ++ rest := by
  cases m with
  | br | brt | brf | iconst | load | gload | store | gstore =>
    obtain ⟨a, rfl, rfl⟩ := decodeOne_eq_ok h
    exact ⟨rfl, rfl⟩
  | call =>
    obtain ⟨a, b, rfl, rfl⟩ := decodeTwo_eq_ok h
    exact ⟨rfl, rfl⟩
  | _ => cases h; exact ⟨rfl, rfl⟩

theorem arity_lt_length_of_decode {c : OpcodeMap} {ws rest : List Word} {i : Instr}
    (h : decode c ws = .ok i rest) : i.mnemonic.arity < ws.length := by
  cases ws with
  | nil => cases h
  | cons w ws =>
    simp only [decode] at h
    split at h
    · cases h
    · obtain ⟨_, rfl⟩ := eq_of_decodeOperands h
      simp only [List.length_cons, List.length_append, Instr.operands_length]
      omega

namespace Machine

/-- Every word of the window was inside the program (R80). -/
theorem State.inProgram_of_lt_window {s : State} {k n : Nat} {a : Int} (h : k < (s.window a n).length) :
    s.inProgram (a + k) := by
  induction n generalizing a k with
  | zero => cases h
  | succ n ih =>
    simp only [State.window] at h
    split at h
    · next first =>
      cases k with
      | zero => simpa using first
      | succ k =>
        have := ih (Nat.lt_of_succ_lt_succ h)
        rwa [show a + 1 + (k : Int) = a + (k + 1 : Nat) by omega] at this
    · cases h

theorem inProgram_of_fetch {s : State} {i : Instr} (h : fetch s = .instr i) {k : Nat}
    (hk : k ≤ i.mnemonic.arity) : s.inProgram (s.ip.toInt + k) := by
  unfold fetch at h
  split at h
  · next hd =>
    cases h
    exact State.inProgram_of_lt_window (Nat.lt_of_le_of_lt hk (arity_lt_length_of_decode hd))
  · cases h
  · cases h

/-- Settles O17: the first and the last word of a fetched instruction are inside the program, and PROG_LEN is
a word. -/
theorem nextAddressNeverWraps : Obligations.NextAddressNeverWraps := by
  intro s i _ _ hf
  obtain ⟨low, _⟩ := inProgram_of_fetch hf (Nat.zero_le _)
  obtain ⟨_, high⟩ := inProgram_of_fetch hf le_rfl
  have := toInt_high s.progLen
  exact ⟨by omega, by omega, toInt_wrapW (by omega) (by omega)⟩

end Machine
end Sys2Proof
end

section
/-! Inspect (R31, R235) and the codes of the host's registers (R31, R201). -/

namespace Sys2Proof.Machine

theorem RunState.stopped_of_inspectable {r : RunState} (h : r = .ready ∨ r = .halted ∨ r = .faulted) :
    r.stopped = true := by
  rcases h with rfl | rfl | rfl <;> rfl

theorem RunState.not_stopped_of_refusing {r : RunState} (h : r = .unbound ∨ r = .running) : ¬ r.stopped = true := by
  rcases h with rfl | rfl <;> decide

theorem State.globalWords_getElem? {s : State} {k : Nat} (h : (k : Int) < s.nglobals.toInt) :
    s.globalWords[k]? = some (s.global k) := by
  simp only [State.globalWords, List.getElem?_map, List.getElem?_range (show k < s.nglobals.toInt.toNat by omega),
    Option.map_some]

theorem State.globalWords_length (s : State) : s.globalWords.length = s.nglobals.toInt.toNat := by
  simp [State.globalWords]

theorem State.liveStack_getElem? {s : State} {i : Nat} (h : (i : Int) ≤ s.sp.toInt) :
    s.liveStack[i]? = some (s.slot i) := by
  simp only [State.liveStack, List.getElem?_map, List.getElem?_range (show i < (s.sp.toInt + 1).toNat by omega),
    Option.map_some]

theorem State.liveStack_length (s : State) : s.liveStack.length = (s.sp.toInt + 1).toNat := by
  simp [State.liveStack]

section
variable {s : State}

theorem hostReadGlobal_of_lt {k : Nat} (stopped : s.runState.stopped = true) (h : (k : Int) < s.nglobals.toInt) :
    hostReadGlobal k s = (.word (s.global k), s) := (if_pos stopped).trans (if_pos h)

theorem hostReadGlobal_of_ge {k : Nat} (stopped : s.runState.stopped = true) (h : s.nglobals.toInt ≤ k) :
    hostReadGlobal k s = (.noSuchPlace, s) := (if_pos stopped).trans (if_neg (not_lt.mpr h))

theorem hostReadSlot_of_live {i : Nat} (stopped : s.runState.stopped = true) (h : (i : Int) ≤ s.sp.toInt) :
    hostReadSlot i s = (.word (s.slot i), s) := (if_pos stopped).trans (if_pos h)

theorem hostReadSlot_of_dead {i : Nat} (stopped : s.runState.stopped = true) (above : s.sp.toInt < i)
    (h : (i : Int) < s.cfg.stackCap.toInt) : hostReadSlot i s =
      (.word (Config.freeWord s.draws (.stackSlot i)), { s with draws := s.draws + 1 }) :=
  (if_pos stopped).trans ((if_neg (not_le.mpr above)).trans (if_pos h))

theorem hostReadSlot_of_outside {i : Nat} (stopped : s.runState.stopped = true) (above : s.sp.toInt < i)
    (h : s.cfg.stackCap.toInt ≤ i) : hostReadSlot i s = (.noSuchPlace, s) :=
  (if_pos stopped).trans ((if_neg (not_le.mpr above)).trans (if_neg (not_lt.mpr h)))

theorem hostReadRegister_refused {r : HostReg} (refusing : ¬ s.runState.stopped = true) (hr : r ≠ .runState) :
    hostReadRegister r s = (.refused, s) := if_neg (not_or.mpr ⟨refusing, hr⟩)

end

/-- Settles O47: where the host may inspect, each request shows its part of the state; elsewhere only RUN_STATE
is shown. -/
theorem inspectRule : Obligations.InspectRule := by
  intro s
  refine ⟨fun inspectable => ?whole, fun inspectable => ?pieces, rfl, fun refusing => ?refused, if_pos (.inr rfl)⟩
  case whole =>
    exact ⟨s.snapshot, if_pos (RunState.stopped_of_inspectable inspectable), rfl,
      fun _ => State.globalWords_getElem?, s.globalWords_length, fun _ => State.liveStack_getElem?,
      s.liveStack_length, rfl⟩
  case pieces =>
    have stopped := RunState.stopped_of_inspectable inspectable
    exact ⟨fun _ => if_pos (.inl stopped), fun _ => hostReadGlobal_of_lt stopped,
      fun _ => hostReadGlobal_of_ge stopped, fun _ => hostReadSlot_of_live stopped,
      fun _ above below => ⟨_, hostReadSlot_of_dead stopped above below⟩,
      fun _ => hostReadSlot_of_outside stopped⟩
  case refused =>
    have refuses := RunState.not_stopped_of_refusing refusing
    exact ⟨if_neg refuses, fun _ => hostReadRegister_refused refuses, fun _ => ⟨if_neg refuses, if_neg refuses⟩⟩

/-- Settles O50: the three tables of codes and numbers, read off their definitions. -/
theorem hostCodes : Obligations.HostCodes := ⟨rfl, rfl, rfl⟩

end Sys2Proof.Machine
end

section
/-! What no step writes (R63): the bound program, the configuration and the parameters. -/

namespace Sys2Proof.Machine

/-- The bound part of a state: the program, the configuration and the count of draws, with every register a
step may write at its reset value. -/
def State.binding (s : State) : State :=
  { State.reset with
    prog := s.prog, progLen := s.progLen, startIp := s.startIp, nglobals := s.nglobals, cfg := s.cfg
    draws := s.draws }

theorem effect_binding (i : Instr) (s : State) : (effect i s).binding = s.binding := by
  cases i <;> rfl

theorem step_binding {s t : State} (hs : step s = .next t) : t.binding = s.binding := by
  by_contra changed
  obtain ⟨i, _, _, rfl⟩ := effect_of_changes State.binding hs changed fun _ _ _ => rfl
  exact changed (effect_binding i s)

/-- What depends on the bound part only is the same after a step. -/
theorem step_keeps {α : Type} {f : State → α} {s t : State} (hs : step s = .next t)
    (hf : ∀ u : State, f u.binding = f u) : f t = f s := by rw [← hf t, step_binding hs, hf s]

/-- Settles O13: each of these is read from the bound part, which no step writes. -/
theorem programNeverWritten : Obligations.ProgramNeverWritten := fun _ _ hs =>
  ⟨step_keeps hs fun _ => rfl, step_keeps hs fun _ => rfl, step_keeps hs fun _ => rfl, step_keeps hs fun _ => rfl,
    step_keeps hs fun _ => rfl, fun a => step_keeps (f := (State.progWord · a)) hs fun _ => rfl⟩

end Sys2Proof.Machine
end

section
/-! Reads of the register files (R56, A6): after a write, and of two files in canonical form. -/

namespace Sys2Proof.Machine

theorem State.slot_setSlot {i j : Int} (v : Word) (s : State) (hi : 0 ≤ i) (hj : 0 ≤ j) :
    (s.setSlot i v).slot j = if j = i then v else s.slot j := by
  split
  · next same => rw [same, State.slot_setSlot_same]
  · next other => exact State.slot_setSlot_ne v s hi hj other

/-- Settles O41: each file reads after a write as its operation says, and the write is an update of that one
field. -/
theorem writesTouchOneSlot : Obligations.WritesTouchOneSlot := by
  intro s v i j
  have slot := State.slot_setSlot v s i.cast_nonneg j.cast_nonneg
  have global := State.global_setGlobal v s i.cast_nonneg j.cast_nonneg
  simp only [Nat.cast_inj] at slot global
  exact ⟨slot, global, rfl, rfl⟩

/-- With rising indices the first cell of an index is its only one. -/
theorem Memory.mem_iff_read? {m : Memory} (h : Memory.rising m) {k : Nat} {v : Word} :
    (k, v) ∈ m ↔ Memory.read? m k = some v := by
  induction m with
  | nil => simp
  | cons c m ih =>
    obtain ⟨a, w⟩ := c
    obtain ⟨first, rest⟩ := List.pairwise_cons.mp h
    rw [Memory.read?_cons, List.mem_cons]
    split
    · next same =>
      subst same
      have unlisted : (a, v) ∉ m := fun hv => lt_irrefl a (first _ hv)
      simp [unlisted, eq_comm]
    · next other => simp [ih rest, Ne.symm other]

/-- In the canonical form the cells are the indices that do not read 0, with the words read. -/
theorem Memory.mem_iff_readZero {m : Memory} (h : Memory.wf m) {k : Nat} {v : Word} :
    (k, v) ∈ m ↔ v ≠ 0 ∧ Memory.readZero m k = v := by
  obtain ⟨rising, nonzero⟩ := h
  have listed := Memory.mem_iff_read? rising (k := k) (v := v)
  unfold Memory.readZero
  constructor
  · intro cell
    rw [listed.mp cell]
    exact ⟨nonzero _ cell, rfl⟩
  · rintro ⟨hv, read⟩
    cases found : Memory.read? m k with
    | none => rw [found] at read; exact absurd read.symm hv
    | some w => rw [found] at read; exact listed.mpr (found.trans (congrArg some read))

/-- Settles O42: two files that read alike have the same cells, and the indices of both rise strictly. -/
theorem equalReadsGiveEqualGlobals : Obligations.EqualReadsGiveEqualGlobals := by
  intro m n hm hn reads
  have cells : ∀ c, c ∈ m ↔ c ∈ n := fun (k, v) => by
    rw [Memory.mem_iff_readZero hm, Memory.mem_iff_readZero hn, reads k]
  have : Std.Irrefl fun c d : Nat × Word => c.1 < d.1 := ⟨fun c => lt_irrefl c.1⟩
  have : Std.Antisymm fun c d : Nat × Word => c.1 < d.1 := ⟨fun _ _ lt gt => absurd gt lt.asymm⟩
  exact List.Pairwise.eq_of_mem_iff hm.1 hn.1 cells

end Sys2Proof.Machine
end

section
/-! The decoder (R71 to R78): an opcode word by its whole value, an instruction from its words and back. -/

namespace Sys2Proof

section
variable {c : OpcodeMap} {w : Word} {m : Mnemonic}

theorem Mnemonic.mem_all (m : Mnemonic) : m ∈ Mnemonic.all := by
  cases m <;> decide

theorem Mnemonic.arity_le_two (m : Mnemonic) : m.arity ≤ 2 := by
  cases m <;> decide

theorem OpcodeMap.of_injective (h : c.wellFormed = true) : Function.Injective c.of := fun m n same =>
  List.inj_on_of_nodup_map (of_decide_eq_true h) m.mem_all n.mem_all same

theorem OpcodeMap.mnemonic?_eq_none_iff : c.mnemonic? w = none ↔ ∀ m, w ≠ c.of m := by
  simp only [OpcodeMap.mnemonic?, List.find?_eq_none, beq_iff_eq, Mnemonic.mem_all, forall_const, ne_comm (a := w),
    ne_eq]

/-- Under any map the mnemonic found has the word as its value. -/
theorem OpcodeMap.of_eq_of_mnemonic? (h : c.mnemonic? w = some m) : c.of m = w :=
  eq_of_beq (List.find?_some (p := fun m => c.of m == w) h)

theorem OpcodeMap.mnemonic?_of (h : c.wellFormed = true) (m : Mnemonic) : c.mnemonic? (c.of m) = some m := by
  cases found : c.mnemonic? (c.of m) with
  | none => exact absurd rfl (OpcodeMap.mnemonic?_eq_none_iff.mp found m)
  | some n => rw [OpcodeMap.of_injective h (OpcodeMap.of_eq_of_mnemonic? found)]

/-- The default values are the words 0 to 17 (R74). -/
theorem OpcodeMap.default_of_iff : (∃ m, w = OpcodeMap.default.of m) ↔ 0 ≤ w.toInt ∧ w.toInt ≤ 17 := by
  have table : Mnemonic.all.map OpcodeMap.default.of = (List.range 18).map (BitVec.ofNat 32) := rfl
  have listed : (∃ m, w = OpcodeMap.default.of m) ↔ ∃ k < 18, BitVec.ofNat 32 k = w := by
    have mem : w ∈ Mnemonic.all.map OpcodeMap.default.of ↔ w ∈ (List.range 18).map (BitVec.ofNat 32) := by
      rw [table]
    simpa only [List.mem_map, List.mem_range, Mnemonic.mem_all, true_and, eq_comm (b := w)] using mem
  rw [listed]
  constructor
  · rintro ⟨k, hk, rfl⟩
    have : (BitVec.ofNat 32 k).toInt = k := Machine.toInt_wrapW (x := k) (by omega) (by omega)
    omega
  · rintro ⟨low, high⟩
    refine ⟨w.toInt.toNat, by omega, BitVec.eq_of_toInt_eq ?_⟩
    have := Machine.toInt_wrapW (x := w.toInt.toNat) (by omega) (by omega)
    exact this.trans (Int.toNat_of_nonneg low)

/-- A mnemonic's operand words, taken whole, give the instruction back (R72). -/
theorem decodeOperands_operands (i : Instr) (rest : List Word) :
    decodeOperands i.mnemonic (i.operands ++ rest) = .ok i rest := by
  cases i <;> rfl

/-- Too few operand words: the first that is missing is the one after those there (R80). -/
theorem decodeOperands_missing {ws : List Word} (h : ws.length < m.arity) :
    decodeOperands m ws = .missing (ws.length + 1) := by
  cases m with
  | br | brt | brf | iconst | load | gload | store | gstore =>
    obtain rfl := List.length_eq_zero_iff.mp (Nat.lt_one_iff.mp h)
    rfl
  | call =>
    match ws, h with
    | [], _ => rfl
    | [_], _ => rfl
  | _ => exact absurd h (Nat.not_lt_zero _)

theorem decode_cons_of_mnemonic? {ws : List Word} (h : c.mnemonic? w = some m) :
    decode c (w :: ws) = decodeOperands m ws := by
  simp only [decode, h]

theorem decode_cons_of_illegal {ws : List Word} (h : c.mnemonic? w = none) :
    decode c (w :: ws) = .invalidOpcode w := by
  simp only [decode, h]

theorem decode_encode (h : c.wellFormed = true) (i : Instr) (rest : List Word) :
    decode c (encode c i ++ rest) = .ok i rest :=
  (decode_cons_of_mnemonic? (OpcodeMap.mnemonic?_of h i.mnemonic)).trans (decodeOperands_operands i rest)

theorem encode_length_le_three (c : OpcodeMap) (i : Instr) : (encode c i).length ≤ 3 := by
  simp only [encode, List.length_cons, Instr.operands_length]
  exact Nat.succ_le_succ i.mnemonic.arity_le_two

end

/-- Settles O1: the opcode word names its mnemonic only, and the operand words are taken as they stand. -/
theorem decodeOfEncode : Obligations.DecodeOfEncode := fun _ i rest h => decode_encode h i rest

/-- Settles O2: the mnemonic found has the opcode word as its value, and the operand words are the operands. -/
theorem encodeOfDecode : Obligations.EncodeOfDecode := by
  intro c ws rest i h
  cases ws with
  | nil => cases h
  | cons w ws =>
    cases found : c.mnemonic? w with
    | none => rw [decode_cons_of_illegal found] at h; cases h
    | some m =>
      rw [decode_cons_of_mnemonic? found] at h
      obtain ⟨rfl, rfl⟩ := eq_of_decodeOperands h
      rw [← OpcodeMap.of_eq_of_mnemonic? found]
      rfl

/-- Settles O4: the search finds the one mnemonic whose value is the word. -/
theorem opcodeWordSelectsMnemonic : Obligations.OpcodeWordSelectsMnemonic := fun _ _ m h =>
  ⟨fun found => (OpcodeMap.of_eq_of_mnemonic? found).symm, fun same => same ▸ OpcodeMap.mnemonic?_of h m⟩

/-- Settles O3: the table, read off the definitions. -/
theorem defaultOpcodeTable : Obligations.DefaultOpcodeTable := ⟨rfl, rfl, by decide⟩

/-- Settles O6: the decoder, run on the words of each row. -/
theorem spelledWordsDecode : Obligations.SpelledWordsDecode := ⟨rfl, rfl, rfl, rfl, rfl⟩

end Sys2Proof
end

section
/-! The fetch (R70, R80): which words the window at ip holds, and what is fetched from them. -/

namespace Sys2Proof.Machine

section
variable {s : State}

theorem next_address (a : Int) (j : Nat) : a + 1 + j = a + (j + 1 : Nat) := by omega

theorem State.window_succ {a : Int} (h : s.inProgram a) (n : Nat) :
    s.window a (n + 1) = s.progWord a :: s.window (a + 1) n := if_pos h

/-- Words that lie at an address, inside the program, begin the window there. -/
theorem State.window_eq_append {words : List Word} {a : Int}
    (h : ∀ j : Nat, j < words.length → s.inProgram (a + j) ∧ words[j]? = some (s.progWord (a + j))) (n : Nat) :
    s.window a (words.length + n) = words ++ s.window (a + words.length) n := by
  induction words generalizing a with
  | nil => simp
  | cons w words ih =>
    obtain ⟨first, hw⟩ := h 0 (Nat.zero_lt_succ _)
    simp only [Nat.cast_zero, add_zero, List.getElem?_cons_zero, Option.some.injEq] at first hw
    have rest := ih (a := a + 1) fun j hj => by
      rw [next_address]
      exact h (j + 1) (Nat.succ_lt_succ hj)
    rw [List.length_cons, Nat.add_right_comm, State.window_succ first, rest, next_address, ← hw, List.cons_append]

/-- The window ends at the first address outside the program. -/
theorem State.window_length {j n : Nat} {a : Int} (hj : j ≤ n) (inside : ∀ k : Nat, k < j → s.inProgram (a + k))
    (outside : ¬ s.inProgram (a + j)) : (s.window a n).length = j := by
  induction j generalizing a n with
  | zero =>
    rw [Nat.cast_zero, add_zero] at outside
    cases n with
    | zero => rfl
    | succ n => exact congrArg List.length (if_neg outside)
  | succ j ih =>
    obtain ⟨n, rfl⟩ := Nat.exists_eq_add_of_le' (Nat.zero_lt_of_lt hj)
    have first : s.inProgram a := by simpa using inside 0 (Nat.zero_lt_succ j)
    have rest : (s.window (a + 1) n).length = j := ih (Nat.le_of_succ_le_succ hj)
      (fun k hk => next_address a k ▸ inside (k + 1) (Nat.succ_lt_succ hk)) (next_address a j ▸ outside)
    rw [State.window_succ first, List.length_cons, rest]

/-- The words that lie at ip begin the window a step decodes. -/
theorem State.hasAtIp.window {words : List Word} (h : s.hasAtIp words) (short : words.length ≤ 3) :
    ∃ rest, s.window s.ip.toInt 3 = words ++ rest := by
  obtain ⟨n, hn⟩ := Nat.exists_eq_add_of_le short
  exact ⟨_, hn ▸ State.window_eq_append h n⟩

theorem fetch_of_decode {i : Instr} {rest : List Word}
    (h : decode s.cfg.opcodes (s.window s.ip.toInt 3) = .ok i rest) : fetch s = .instr i := by
  simp only [fetch, h]

theorem fetch_of_hasAtIp {i : Instr} (legal : s.cfg.opcodes.wellFormed = true)
    (h : s.hasAtIp (encode s.cfg.opcodes i)) : fetch s = .instr i := by
  obtain ⟨rest, hw⟩ := h.window (encode_length_le_three _ i)
  exact fetch_of_decode (hw ▸ decode_encode legal i rest)

/-- R80's first check: the address of the opcode word. -/
theorem fetch_outside (h : ¬ s.inProgram s.ip.toInt) : fetch s = .outOfRange s.ip.toInt := by
  have empty : s.window s.ip.toInt 3 = [] := if_neg h
  simp only [fetch, empty, decode, Nat.cast_zero, add_zero]

/-- R80's second check: the opcode word. -/
theorem fetch_illegal (h : s.inProgram s.ip.toInt)
    (illegal : s.cfg.opcodes.mnemonic? (s.progWord s.ip.toInt) = none) :
    fetch s = .invalidOpcode (s.progWord s.ip.toInt) := by
  simp only [fetch, State.window_succ h, decode_cons_of_illegal illegal]

section
variable {m : Mnemonic} (h : s.inProgram s.ip.toInt)
  (found : s.cfg.opcodes.mnemonic? (s.progWord s.ip.toInt) = some m)
include h found

/-- R80's third check: the first operand word that lies outside the program. -/
theorem fetch_missing {j : Nat} (low : 1 ≤ j) (high : j ≤ m.arity)
    (inside : ∀ k : Nat, 1 ≤ k → k < j → s.inProgram (s.ip.toInt + k)) (outside : ¬ s.inProgram (s.ip.toInt + j)) :
    fetch s = .outOfRange (s.ip.toInt + j) := by
  obtain ⟨j, rfl⟩ := Nat.exists_eq_add_of_le' low
  have length : (s.window (s.ip.toInt + 1) 2).length = j :=
    State.window_length (by have := m.arity_le_two; omega)
      (fun k hk => next_address _ k ▸ inside (k + 1) (by omega) (by omega)) (next_address _ j ▸ outside)
  have missing : decodeOperands m (s.window (s.ip.toInt + 1) 2) = .missing (j + 1) :=
    length ▸ decodeOperands_missing (by omega)
  simp only [fetch, State.window_succ h, decode_cons_of_mnemonic? found, missing]

/-- R80 with no check failed: the operand words are those of the instruction. -/
theorem fetch_operands {i : Instr} (hi : i.mnemonic = m)
    (operands : ∀ j : Nat, 1 ≤ j → j ≤ m.arity →
      s.inProgram (s.ip.toInt + j) ∧ i.operands[j - 1]? = some (s.progWord (s.ip.toInt + j))) :
    fetch s = .instr i := by
  subst hi
  have words : s.hasAtIp (s.progWord s.ip.toInt :: i.operands) := by
    intro j hj
    cases j with
    | zero => simpa using h
    | succ j => exact operands (j + 1) (by omega) (by simpa [Instr.operands_length] using hj)
  obtain ⟨rest, hw⟩ := words.window (by
    rw [List.length_cons, Instr.operands_length]; exact Nat.succ_le_succ i.mnemonic.arity_le_two)
  refine fetch_of_decode (i := i) (rest := rest) ?_
  rw [hw, List.cons_append, decode_cons_of_mnemonic? found, decodeOperands_operands]

end

end

end Sys2Proof.Machine
end

section
/-! One step and a run (R80 to R82, R206, R208): the step by what is fetched, and the states a run stays in. -/

namespace Sys2Proof.Machine

section
variable {s : State}

theorem step_of_instr {i : Instr} (running : s.runState = .running) (h : fetch s = .instr i) : step s = exec i s := by
  simp only [step, running, h]

theorem step_of_invalidOpcode {w : Word} (running : s.runState = .running) (h : fetch s = .invalidOpcode w) :
    step s = raiseInvalidOpcode w s := by
  simp only [step, running, h]

theorem step_of_outOfRange {a : Int} (running : s.runState = .running) (h : fetch s = .outOfRange a) :
    step s = raiseFetch a s := by
  simp only [step, running, h]

/-- A state its own step answers is where the run stays. -/
theorem runSteps_of_step_self (h : step s = .next s) (n : Nat) : runSteps n s = s := by
  induction n with
  | zero => rfl
  | succ n ih => simp only [runSteps, h, ih]

theorem runSteps_idle (h : s.runState ≠ .running) (n : Nat) : runSteps n s = s :=
  runSteps_of_step_self (step_idle h) n

/-- Only HALT's effect writes RUN_STATE. -/
theorem effect_runState {i : Instr} (s : State) (h : i ≠ .halt) : (effect i s).runState = s.runState := by
  cases i with
  | halt => exact absurd rfl h
  | _ => rfl

end

/-- Settles O5: no mnemonic has the word, so the second check of the fetch fails, and FAULTED takes no step. -/
theorem illegalOpcodeFaults : Obligations.IllegalOpcodeFaults := by
  refine ⟨fun c w => OpcodeMap.mnemonic?_eq_none_iff, fun w => ?range, fun s running inside illegal => ?fault⟩
  case range =>
    have legal := OpcodeMap.default_of_iff (w := w)
    rw [OpcodeMap.mnemonic?_eq_none_iff, ← not_exists, legal]
    omega
  case fault =>
    have fetched := fetch_illegal inside (OpcodeMap.mnemonic?_eq_none_iff.mpr illegal)
    obtain ⟨low, high⟩ := inside
    have := toInt_high s.progLen
    exact ⟨_, step_of_invalidOpcode running fetched, toInt_wrapW (by omega) (by omega), rfl,
      runSteps_idle nofun⟩

/-- Settles O8: each check of the fetch, in its order, decides the step. -/
theorem stepFollowsDispatchAlgorithm : Obligations.StepFollowsDispatchAlgorithm := by
  intro s running
  refine ⟨fun outside => ?opcodeAddress, fun inside illegal => ?opcode, fun m inside found =>
    ⟨fun j low high before outside => ?operandAddress, fun i hi operands => ?execution⟩⟩
  case opcodeAddress =>
    have stepped := step_of_outOfRange running (fetch_outside outside)
    rwa [raiseFetch, wrapW_toInt] at stepped
  case opcode => exact step_of_invalidOpcode running (fetch_illegal inside illegal)
  case operandAddress => exact step_of_outOfRange running (fetch_missing inside found low high before outside)
  case execution => exact step_of_instr running (fetch_operands inside found hi operands)

/-- Settles O7: the words at ip decode to the instruction they encode. -/
theorem stepRunsDecodedInstruction : Obligations.StepRunsDecodedInstruction := fun _ _ running legal words =>
  step_of_instr running (fetch_of_hasAtIp legal words)

/-- Settles O9: the step is idle, and so is every later one. -/
theorem noInstructionOutsideRunning : Obligations.NoInstructionOutsideRunning := fun _ h =>
  ⟨step_idle h, runSteps_idle h⟩

/-- Settles O10: an idle step, an instruction's effect and each fault are all next states. -/
theorem stepAlwaysAnswersNext : Obligations.StepAlwaysAnswersNext := by
  intro s
  by_cases running : s.runState = .running
  · rcases step_running running with ⟨i, _, stepped⟩ | ⟨w, _, stepped⟩ | ⟨a, _, stepped⟩
    · rcases exec_cases i s with ⟨_, done⟩ | ⟨_, c, v, _, faulted⟩
      · exact ⟨_, stepped.trans done⟩
      · exact ⟨_, stepped.trans faulted⟩
    · exact ⟨_, stepped⟩
    · exact ⟨_, stepped⟩
  · exact ⟨s, step_idle running⟩

/-- Settles O11: of the four ends of a step in RUNNING three are faults, and of the effects only HALT's leaves
RUNNING. -/
theorem runStopsOnlyByHaltOrFault : Obligations.RunStopsOnlyByHaltOrFault := by
  intro s t running hs
  rcases step_running_cases running hs with
    ⟨i, hf, _, rfl⟩ | ⟨i, c, v, hf, failed, ⟨cause, _, _⟩, rfl⟩ | ⟨w, hf, rfl⟩ | ⟨a, hf, rfl⟩ <;> rw [hf]
  · by_cases halt : i = .halt
    · subst halt
      exact .inr (.inl ⟨rfl, rfl⟩)
    · exact .inl ⟨(effect_runState s halt).trans running, fun same => halt (Fetched.instr.inj same)⟩
  · have other : i ≠ .halt := by
      rintro rfl
      exact failed trivial
    exact .inr (.inr ⟨rfl, fun same => other (Fetched.instr.inj same), cause, rfl⟩)
  · exact .inr (.inr ⟨rfl, nofun, nofun, rfl⟩)
  · exact .inr (.inr ⟨rfl, nofun, nofun, rfl⟩)

/-- Settles O39: the branch writes ip with the address it has, so its step answers the same RUNNING state. -/
theorem selfBranchRunsForever : Obligations.SelfBranchRunsForever := by
  intro s running legal words
  have stays : ∀ n, runSteps n s = s :=
    runSteps_of_step_self (step_of_instr running (fetch_of_hasAtIp legal words))
  refine ⟨stays, fun n => ?_, fun n => ?_⟩
  · rw [stays, running]; decide
  · rw [stays, State.ended, running]; decide

end Sys2Proof.Machine
end

section
/-! The model's loader (A12): the words it lays over the program are read back at ip. -/

namespace Sys2Proof.Machine

theorem overlay_length (prog words : List Word) (a : Nat) :
    (overlay prog a words).length = max prog.length (a + words.length) := by
  simp only [overlay, List.length_append, List.length_take, List.length_replicate, List.length_drop]
  omega

theorem overlay_getElem? (prog : List Word) {words : List Word} (a : Nat) {j : Nat} (h : j < words.length) :
    (overlay prog a words)[a + j]? = words[j]? := by
  have before : (prog.take a ++ List.replicate (a - prog.length) 0).length = a := by
    simp only [List.length_append, List.length_take, List.length_replicate]
    omega
  rw [overlay, List.append_assoc, List.getElem?_append_right (by omega), before, Nat.add_sub_cancel_left,
    List.getElem?_append_left h]

/-- Where the loader places three words: an address that leaves room for them in a legal program. -/
theorem State.placeAtIp_eq (s : State) (words : List Word) :
    ∃ a : Nat, a + 3 ≤ 2147483647 ∧ s.placeAtIp words = { s with
      ip := wrapW a, prog := overlay s.prog a words
      progLen := BitVec.ofNat 32 (min (overlay s.prog a words).length 2147483647), runState := .running } := by
  by_cases room : 0 ≤ s.ip.toInt ∧ s.ip.toInt + 3 ≤ 2147483647
  · refine ⟨s.ip.toInt.toNat, by omega, ?_⟩
    rw [Int.toNat_of_nonneg room.1]
    simp only [State.placeAtIp, if_pos room]
  · refine ⟨0, by decide, ?_⟩
    simp only [State.placeAtIp, if_neg room]
    rfl

/-- Three placed words lie at ip, inside the program, when the program's length is legal. -/
theorem State.hasAtIp_placeAtIp {s : State} {words : List Word} (three : words.length = 3)
    (legal : s.prog.length ≤ 2147483647) : (s.placeAtIp words).hasAtIp words := by
  intro j hj
  obtain ⟨a, room, placed⟩ := s.placeAtIp_eq words
  have ip : (s.placeAtIp words).ip.toInt = a := by
    rw [placed]
    exact toInt_wrapW (by omega) (by omega)
  have length : (s.placeAtIp words).progLen.toInt = max s.prog.length (a + 3) := by
    rw [placed, overlay_length, three, Nat.min_eq_left (by omega)]
    exact toInt_wrapW (x := (max s.prog.length (a + 3) : Nat)) (by omega) (by omega)
  have word : (s.placeAtIp words).prog[a + j]? = words[j]? := by
    rw [placed]
    exact overlay_getElem? s.prog a hj
  refine ⟨by omega, ?_⟩
  rw [ip, ← Nat.cast_add, State.progWord, Int.toNat_natCast, word, List.getElem?_eq_getElem hj, Option.getD_some]

theorem decode_of_decodeTableWord {nbits w : Nat} {i : Instr} (h : decodeTableWord nbits w = some i) :
    ∃ rest, decode OpcodeMap.default (tableWords nbits w) = .ok i rest := by
  unfold decodeTableWord at h
  split at h
  · next decoded => cases h; exact ⟨_, decoded⟩
  · cases h
  · cases h

/-- Settles O52: the window at ip is the three placed words, which are the words the row decodes from. -/
theorem placedWordIsRun : Obligations.PlacedWordIsRun := by
  intro s nbits w i defaultMap legal row
  obtain ⟨rest, decoded⟩ := decode_of_decodeTableWord row
  have window : (s.withFetchWord nbits w).window (s.withFetchWord nbits w).ip.toInt 3 = tableWords nbits w :=
    (State.window_eq_append (State.hasAtIp_placeAtIp rfl legal) 0).trans (List.append_nil _)
  rw [← defaultMap, ← window] at decoded
  exact step_of_instr rfl (fetch_of_decode decoded)

end Sys2Proof.Machine
end

section
/-! HALT and PRINT (R100, R101): each by its checks and its effect. -/

namespace Sys2Proof.Machine

section
variable (s : State)

/-- The address after an instruction of one word (R11). -/
theorem State.nextIp_zero : s.nextIp 0 = wrapW (s.ip.toInt + 1) := by
  rw [State.nextIp, Nat.cast_zero, add_zero]

theorem effect_halt : effect .halt s = { s with ip := wrapW (s.ip.toInt + 1), runState := .halted } := by
  rw [← State.nextIp_zero]
  rfl

theorem effect_print_slot {i : Int} (low : 0 ≤ i) (below : i < s.sp.toInt) :
    (effect .print s).slot i = s.slot i := State.slot_pop s low (Int.le_sub_one_of_lt below)

theorem exec_print_underflow (empty : s.sp.toInt < 0) : exec .print s = raise .stackUnderflow s.sp s :=
  if_neg (not_le.mpr empty)

end

/-- Settles O22: HALT makes no check, so it completes with its effect. -/
theorem haltRule : Obligations.HaltRule :=
  ⟨rfl, fun s => (exec_of_checks (i := .halt) trivial).trans (congrArg _ (effect_halt s))⟩

/-- Settles O23: with a word on the stack PRINT's one check passes and its effect is the pop and the append;
without one the check fails. -/
theorem printRule : Obligations.PrintRule := by
  refine ⟨rfl, fun s => ⟨fun nonempty => ?completes, exec_print_underflow s⟩⟩
  case completes =>
    have passes : checks .print s := nonempty
    exact ⟨effect .print s, exec_of_checks passes, sp_pred_toInt s nonempty, s.nextIp_zero, rfl,
      fun i below => effect_print_slot s i.cast_nonneg below⟩

end Sys2Proof.Machine
end

section
/-! The text of the output stream (R102): the digits written are the decimal form of the magnitude. -/

namespace Sys2Proof.Machine

/-- The number a string of digits 0x30 to 0x39 stands for, the most significant first. -/
def decimalValue (digits : List (BitVec 8)) : Nat := digits.foldl (fun n d => 10 * n + (d.toNat - 0x30)) 0

/-- The string is the decimal form of the number as R102 has it: digits only, of that value, and no leading
zero but for the single digit of 0. -/
structure IsDecimal (digits : List (BitVec 8)) (n : Nat) : Prop where
  nonempty : digits ≠ []
  range : ∀ d ∈ digits, 0x30 ≤ d.toNat ∧ d.toNat ≤ 0x39
  value : decimalValue digits = n
  leading : digits.head? = some 0x30 → digits = [0x30]

theorem decimalValue_append (digits : List (BitVec 8)) (d : BitVec 8) :
    decimalValue (digits ++ [d]) = 10 * decimalValue digits + (d.toNat - 0x30) := by
  simp only [decimalValue, List.foldl_append, List.foldl_cons, List.foldl_nil]

theorem digit_toNat {d : Nat} (h : d < 10) : (BitVec.ofNat 8 (0x30 + d)).toNat = 0x30 + d := by
  rw [BitVec.toNat_ofNat]
  omega

theorem digit_range {d : Nat} (h : d < 10) :
    0x30 ≤ (BitVec.ofNat 8 (0x30 + d)).toNat ∧ (BitVec.ofNat 8 (0x30 + d)).toNat ≤ 0x39 := by
  rw [digit_toNat h]
  omega

theorem IsDecimal.single {d : Nat} (h : d < 10) : IsDecimal [BitVec.ofNat 8 (0x30 + d)] d where
  nonempty := List.cons_ne_nil _ _
  range := List.forall_mem_singleton.mpr (digit_range h)
  value := by
    simp only [decimalValue, List.foldl_cons, List.foldl_nil, digit_toNat h]
    omega
  leading := fun first => congrArg (fun x => [x]) (Option.some.inj first)

/-- One more digit after those of a positive number: its first digit stays, and that is not 0. -/
theorem IsDecimal.append {digits : List (BitVec 8)} {n d : Nat} (h : IsDecimal digits n) (positive : 0 < n)
    (hd : d < 10) : IsDecimal (digits ++ [BitVec.ofNat 8 (0x30 + d)]) (10 * n + d) where
  nonempty := List.append_ne_nil_of_left_ne_nil h.nonempty _
  range := List.forall_mem_append.mpr ⟨h.range, List.forall_mem_singleton.mpr (digit_range hd)⟩
  value := by rw [decimalValue_append, h.value, digit_toNat hd, Nat.add_sub_cancel_left]
  leading := fun first => by
    rw [List.head?_append_of_ne_nil _ h.nonempty] at first
    have zero : n = 0 := by rw [← h.value, h.leading first]; rfl
    exact absurd zero positive.ne'

/-- With room for all its digits a number is written in full. -/
theorem decimalDigits_isDecimal {fuel n : Nat} (room : n < 10 ^ (fuel + 1)) :
    IsDecimal (decimalDigits fuel n) n := by
  induction fuel generalizing n with
  | zero =>
    have small : n < 10 := room
    rw [decimalDigits, Nat.mod_eq_of_lt small]
    exact .single small
  | succ fuel ih =>
    rw [decimalDigits]
    split
    · next small => exact .single small
    · next large =>
      have shorter : n / 10 < 10 ^ (fuel + 1) := Nat.div_lt_of_lt_mul (by rwa [← Nat.pow_succ'])
      have written := (ih shorter).append (Nat.div_pos (not_lt.mp large) (by decide)) (Nat.mod_lt n (by decide))
      rwa [Nat.div_add_mod] at written

/-- Settles O43: a word's magnitude is at most 2^31, which ten digits write in full. -/
theorem decimalText : Obligations.DecimalText := by
  refine ⟨fun v => ?word, rfl, fun v out => List.flatMap_cons⟩
  case word =>
    have magnitude : v.toInt.natAbs < 10 ^ 10 := by
      have := toInt_low v
      have := toInt_high v
      omega
    obtain ⟨nonempty, range, value, leading⟩ := decimalDigits_isDecimal magnitude
    exact ⟨decimalDigits 9 v.toInt.natAbs, nonempty, rfl, range, value, leading⟩

end Sys2Proof.Machine
end

section
/-! IADD, ISUB, IMUL, ILT and IEQ (R120 to R125): all five are the shared operation on the two top words, so
its rule is said once, for any operation on words and then for any comparison. -/

namespace Sys2Proof.Machine

section
variable {s : State}

/-- R120, with two words on the stack. -/
theorem aluOp_completes (op : Word → Word → Word) (two : 1 ≤ s.sp.toInt) :
    ∃ t, aluOp op s = .next t ∧ t.sp.toInt = s.sp.toInt - 1 ∧
      t.slot (s.sp.toInt - 1) = op (s.slot (s.sp.toInt - 1)) (s.slot s.sp.toInt) ∧
      t.ip = wrapW (s.ip.toInt + 1) ∧ ChangesOnlyStackFrom s t (s.sp.toInt - 1) := by
  have passes : s.holds 2 := two
  have below : ∀ (v : Word) (i : Nat), (i : Int) < s.sp.toInt - 1 →
      ((s.lowerSp (s.sp.toInt - 1)).setSlot (s.sp.toInt - 1) v).slot i = s.slot i := fun v i hi =>
    (State.slot_setSlot_ne v _ (Int.sub_nonneg_of_le two) i.cast_nonneg hi.ne).trans
      (State.slot_lowerSp s i.cast_nonneg hi.le)
  exact ⟨_, if_pos passes, sp_pred_toInt s (by omega), State.slot_setSlot_same _ _ _, s.nextIp_zero, rfl,
    below _⟩

/-- R120, with fewer than two words on the stack. -/
theorem aluOp_underflow (op : Word → Word → Word) (short : s.sp.toInt < 1) :
    TakesFault (aluOp op s) s .stackUnderflow s.sp := if_neg (not_le.mpr short)

/-- R29, R120: the result of a comparison is 1 or 0. -/
theorem aluOp_comparison (holds : Int → Int → Prop) [DecidableRel holds] (two : 1 ≤ s.sp.toInt) :
    ∃ t, aluOp (fun a b => truthWord (decide (holds a.toInt b.toInt))) s = .next t ∧
      t.sp.toInt = s.sp.toInt - 1 ∧
      (holds (s.slot (s.sp.toInt - 1)).toInt (s.slot s.sp.toInt).toInt → t.slot (s.sp.toInt - 1) = 1) ∧
      (¬ holds (s.slot (s.sp.toInt - 1)).toInt (s.slot s.sp.toInt).toInt → t.slot (s.sp.toInt - 1) = 0) ∧
      t.ip = wrapW (s.ip.toInt + 1) ∧ ChangesOnlyStackFrom s t (s.sp.toInt - 1) := by
  obtain ⟨t, completes, sp, result, ip, frame⟩ :=
    aluOp_completes (fun a b => truthWord (decide (holds a.toInt b.toInt))) two
  exact ⟨t, completes, sp, fun h => result.trans (congrArg truthWord (decide_eq_true h)),
    fun h => result.trans (congrArg truthWord (decide_eq_false h)), ip, frame⟩

end

/-- Settles O24: each of the three is the shared operation on its wrapped exact result. -/
theorem arithmeticRule : Obligations.ArithmeticRule := by
  refine ⟨rfl, rfl, rfl, fun s i op which => ?rule⟩
  case rule =>
    have meaning : exec i s = aluOp (fun a b => wrapW (op a.toInt b.toInt)) s := by
      rcases which with ⟨rfl, rfl⟩ | ⟨rfl, rfl⟩ | ⟨rfl, rfl⟩ <;> rfl
    rw [meaning]
    exact ⟨aluOp_completes _, aluOp_underflow _⟩

/-- Settles O25: each of the two is the shared operation on the truth word of its relation. -/
theorem comparisonRule : Obligations.ComparisonRule := by
  refine ⟨rfl, rfl, ?rule⟩
  case rule =>
    rintro s i holds (⟨rfl, rfl⟩ | ⟨rfl, rfl⟩)
    · exact ⟨aluOp_comparison (· < ·), aluOp_underflow lessThan⟩
    · exact ⟨aluOp_comparison (· = ·), aluOp_underflow equalTo⟩

end Sys2Proof.Machine
end

section
/-! BR, BRT and BRF (R141 to R144): the two conditional branches are the shared operation with the word they
jump on, so its rule is said once, for any such word. -/

namespace Sys2Proof.Machine

/-- The address after a format I instruction (R11). -/
theorem State.nextIp_one (s : State) : s.nextIp 1 = wrapW (s.ip.toInt + 2) := congrArg wrapW (add_assoc _ 1 1)

section
variable {s : State}

/-- R142, R143, with a word on the stack: one word is popped, and its value alone decides where ip goes. -/
theorem branchOn_completes (expected target : Word) (nonempty : 0 ≤ s.sp.toInt) :
    ∃ t, branchOn expected target s = .next t ∧ t.sp.toInt = s.sp.toInt - 1 ∧
      ((s.slot s.sp.toInt).toInt = expected.toInt → t.ip = target) ∧
      ((s.slot s.sp.toInt).toInt ≠ expected.toInt → t.ip = wrapW (s.ip.toInt + 2)) ∧
      ChangesOnlyStackFrom s t s.sp.toInt := by
  have passes : s.holds 1 := nonempty
  have jumps : (s.slot s.sp.toInt).toInt = expected.toInt ↔ s.top = expected := BitVec.toInt_inj
  exact ⟨_, if_pos passes, sp_pred_toInt s nonempty, fun same => if_pos (jumps.mp same),
    fun other => (if_neg (mt jumps.mpr other)).trans s.nextIp_one, rfl,
    fun i below => State.slot_pop s i.cast_nonneg (Int.le_sub_one_of_lt below)⟩

/-- R142, R143, with an empty stack. -/
theorem branchOn_underflow (expected target : Word) (empty : s.sp.toInt < 0) :
    TakesFault (branchOn expected target s) s .stackUnderflow s.sp := if_neg (not_le.mpr empty)

end

/-- Settles O26: BR makes no check and writes ip alone. -/
theorem branchRule : Obligations.BranchRule := fun _ => ⟨rfl, fun _ => rfl⟩

/-- Settles O27: BRT is the shared operation with the word 1, BRF with the word 0. -/
theorem conditionalBranchRule : Obligations.ConditionalBranchRule := by
  refine fun target => ⟨rfl, rfl, ?rule⟩
  case rule =>
    rintro s i jumpsOn (⟨rfl, rfl⟩ | ⟨rfl, rfl⟩)
    · exact ⟨branchOn_completes 1 target, branchOn_underflow 1 target⟩
    · exact ⟨branchOn_completes 0 target, branchOn_underflow 0 target⟩

end Sys2Proof.Machine
end

section
/-! ICONST, LOAD, GLOAD, STORE, GSTORE and POP (R160 to R166): the three that push are the shared operation
on the word they push, so its rule is said once, for any word; the three that pop leave what lies below. -/

namespace Sys2Proof.Machine

section
variable {s : State}

/-- R161, R162, R163, with room for a word. -/
theorem pushResult_completes (v : Word) (room : s.sp.toInt + 1 ≤ s.cfg.stackCap.toInt - 1) :
    ∃ t, pushResult v s = .next t ∧ t.sp.toInt = s.sp.toInt + 1 ∧ t.slot (s.sp.toInt + 1) = v ∧
      t.ip = wrapW (s.ip.toInt + 2) ∧ ChangesOnlyStackFrom s t (s.sp.toInt + 1) := by
  have passes : s.fits 1 := room
  exact ⟨_, if_pos passes, sp_add_toInt s 1 passes, State.slot_push_new v s, s.nextIp_one, rfl,
    fun i below => State.slot_push_old v s i.cast_nonneg below⟩

/-- R161, R162, R163, with a full stack. -/
theorem pushResult_overflow (v : Word) (full : s.cfg.stackCap.toInt - 1 < s.sp.toInt + 1) :
    TakesFault (pushResult v s) s .stackOverflow s.sp := if_neg (not_le.mpr full)

/-- A pop leaves every slot below the popped one (R12). -/
theorem State.slot_pop_below (i : Nat) (below : (i : Int) < s.sp.toInt) : s.pop.slot i = s.slot i :=
  State.slot_pop s i.cast_nonneg (Int.le_sub_one_of_lt below)

/-- An integer outside a range that starts at 0 fails the check of the range (R160, R163). -/
theorem not_in_range {x high : Int} (outside : x < 0 ∨ high < x) : ¬ (0 ≤ x ∧ x ≤ high) :=
  not_and_or.mpr (outside.imp not_le.mpr not_le.mpr)

end

/-- Settles O28: ICONST is the push of its value. -/
theorem iconstRule : Obligations.IconstRule := fun value =>
  ⟨rfl, fun _ => ⟨pushResult_completes value, pushResult_overflow value⟩⟩

/-- Settles O29: with the slot live LOAD is the push of its word, whether or not that fits. -/
theorem loadRule : Obligations.LoadRule := by
  refine fun offset => ⟨rfl, fun s => ⟨fun low high => ?live, fun outside => if_neg (not_in_range outside)⟩⟩
  case live =>
    have meaning : exec (.load offset) s = pushResult (s.slot (s.frameIndex offset)) s := if_pos ⟨low, high⟩
    rw [meaning]
    exact ⟨pushResult_completes _, pushResult_overflow _⟩

/-- Settles O30: with the index in range GLOAD is the push of the global, whether or not that fits. -/
theorem gloadRule : Obligations.GloadRule := by
  refine fun index => ⟨rfl, fun s => ⟨fun low high => ?inRange, fun outside => if_neg (not_in_range outside)⟩⟩
  case inRange =>
    have meaning : exec (.gload index) s = pushResult (s.global index.toInt) s := if_pos ⟨low, high⟩
    rw [meaning]
    exact ⟨pushResult_completes _, pushResult_overflow _⟩

/-- Settles O31: when its checks pass STORE is the pop and then the write of one slot below the popped one. -/
theorem storeRule : Obligations.StoreRule := by
  refine fun offset => ⟨rfl, fun s => ⟨fun empty => if_neg (not_le.mpr empty),
    fun nonempty => ⟨?live, ?outside⟩⟩⟩
  case live =>
    intro low high
    have passes : checks (.store offset) s := ⟨nonempty, low, high⟩
    have others : ∀ i : Nat, (i : Int) < s.sp.toInt → (i : Int) ≠ s.frameIndex offset →
        (effect (.store offset) s).slot i = s.slot i := fun i below other =>
      (State.slot_setSlot_ne _ _ low i.cast_nonneg other).trans (State.slot_pop_below i below)
    exact ⟨_, exec_of_checks passes, sp_pred_toInt s nonempty, State.slot_setSlot_same _ _ _, s.nextIp_one, rfl,
      others⟩
  case outside =>
    intro outside
    have pops : s.holds 1 := nonempty
    exact (if_pos pops).trans (if_neg (not_in_range outside))

/-- Settles O32: when its checks pass GSTORE is the pop and then the write of one global. -/
theorem gstoreRule : Obligations.GstoreRule := by
  refine fun index => ⟨rfl, fun s => ⟨fun empty => if_neg (not_le.mpr empty),
    fun nonempty => ⟨?inRange, ?outside⟩⟩⟩
  case inRange =>
    intro low high
    have passes : checks (.gstore index) s := ⟨nonempty, low, high⟩
    have written : ∀ k : Int, 0 ≤ k →
        (effect (.gstore index) s).global k = if k = index.toInt then s.top else s.global k := fun k hk =>
      State.global_setGlobal s.top s.pop low hk
    exact ⟨_, exec_of_checks passes, sp_pred_toInt s nonempty, (written _ low).trans (if_pos rfl), s.nextIp_one,
      rfl, fun k other => (written k k.cast_nonneg).trans (if_neg other), State.slot_pop_below⟩
  case outside =>
    intro outside
    have pops : s.holds 1 := nonempty
    exact (if_pos pops).trans (if_neg (not_in_range outside))

/-- Settles O33: with a word on the stack POP's one check passes and its effect is the pop; without one the
check fails. -/
theorem popRule : Obligations.PopRule := by
  refine ⟨rfl, fun s => ⟨fun nonempty => ?completes, fun empty => if_neg (not_le.mpr empty)⟩⟩
  case completes =>
    have passes : checks .pop s := nonempty
    exact ⟨_, exec_of_checks passes, sp_pred_toInt s nonempty, s.nextIp_zero, rfl, State.slot_pop_below⟩

/-- Settles O38: by the rules of the two. GSTORE leaves NGLOBALS and STACK_CAP, so GLOAD's index is in range
and, sp being one lower, its push has room. -/
theorem gstoreThenGload : Obligations.GstoreThenGload := by
  intro s k inv running nonempty low high
  have sp_high := (inv.bound (by simp [running])).sp_high
  obtain ⟨-, gstore⟩ := gstoreRule k
  obtain ⟨-, pops⟩ := gstore s
  obtain ⟨t, stores, sp_t, stored, -, frame_t, -, -⟩ := (pops nonempty).1 low high
  have nglobals : t.nglobals = s.nglobals := by rw [frame_t]
  have cfg : t.cfg = s.cfg := by rw [frame_t]
  obtain ⟨-, gload⟩ := gloadRule k
  obtain ⟨pushes, -⟩ := gload t
  obtain ⟨u, loads, sp_u, loaded, -, frame_u, -⟩ := (pushes low (nglobals ▸ high)).1 (by rw [cfg]; omega)
  have kept : u.global k.toInt = t.global k.toInt := (congrArg (State.global · k.toInt) frame_u :)
  have sp : u.sp = s.sp := BitVec.toInt_inj.mp (by omega)
  exact ⟨t, u, stores, loads, sp, by rw [sp_u, loaded, stored], kept.trans stored⟩

end Sys2Proof.Machine
end

section
/-! CALL and RET (R180 to R183): what each does where its checks pass, its faults, and from the two rules the
layout of a frame and the round trip. -/

namespace Sys2Proof.Machine

/-- The address after a format II instruction (R11). -/
theorem State.nextIp_two (s : State) : s.nextIp 2 = wrapW (s.ip.toInt + 3) := congrArg wrapW (add_assoc _ 1 2)

section
variable {s : State}

/-- CALL writes the three slots above sp and no other (R181). -/
theorem effect_call_slot (target argc : Word) (low : -1 ≤ s.sp.toInt) (room : s.fits 3) {j : Int} (hj : 0 ≤ j) :
    (effect (.call target argc) s).slot j =
      if j = s.sp.toInt + 3 then s.nextIp 2
      else if j = s.sp.toInt + 2 then s.fp
      else if j = s.sp.toInt + 1 then argc
      else s.slot j := by
  obtain ⟨-, read⟩ := push_three (a := argc) (b := s.fp) (c := s.nextIp 2) low room
  have word : (effect (.call target argc) s).slot j =
      (Memory.read? (((s.push argc).push s.fp).push (s.nextIp 2)).stack j.toNat).getD
        (Config.freeWord s.draws (.stackSlot j.toNat)) := rfl
  rw [word, read, Int.toNat_of_nonneg hj]
  split_ifs <;> rfl

/-- With its frame in the live window RET is left with the two checks of the saved count (R182). -/
theorem exec_ret_of_frame (base : 2 ≤ s.fp.toInt) (frame : s.fp.toInt ≤ s.sp.toInt - 1) :
    exec .ret s =
      if 0 ≤ (s.slot (s.fp.toInt - 2)).toInt then
        if (s.slot (s.fp.toInt - 2)).toInt ≤ s.fp.toInt - 2 then .next (unwindFrame s)
        else raise .stackUnderflow (s.slot (s.fp.toInt - 2)) s
      else raise .invalidArgCount (s.slot (s.fp.toInt - 2)) s := by
  have nonempty : s.holds 1 := by omega
  exact (if_pos nonempty).trans ((if_pos base).trans (if_pos frame))

/-- A result that replaces the words from slot `i` on leaves the slots below it (R120, R182). -/
theorem State.slot_lowerSp_setSlot_below {i : Int} (v : Word) (hi : 0 ≤ i) (j : Nat) (below : (j : Int) < i) :
    ((s.lowerSp i).setSlot i v).slot j = s.slot j :=
  (State.slot_setSlot_ne v _ hi j.cast_nonneg below.ne).trans (State.slot_lowerSp s j.cast_nonneg below.le)

/-- The depth RET leaves, where the saved count passes its checks (R182). -/
theorem unwindFrame_sp (low : 0 ≤ (s.slot (s.fp.toInt - 2)).toInt)
    (high : (s.slot (s.fp.toInt - 2)).toInt ≤ s.fp.toInt - 2) :
    (unwindFrame s).sp.toInt = s.fp.toInt - 2 - (s.slot (s.fp.toInt - 2)).toInt := by
  have := toInt_high s.fp
  exact toInt_wrapW (by omega) (by omega)

end

/-- Settles O34: the one check is that three words fit; with it the reads are those of the three pushes. -/
theorem callRule : Obligations.CallRule := by
  refine fun target argc => ⟨rfl, fun s low => ⟨fun room => ?completes, fun full => if_neg (not_le.mpr full)⟩⟩
  case completes =>
    have passes : s.fits 3 := room
    have slot {j : Int} := effect_call_slot target argc low passes (j := j)
    have fp := sp_add_toInt s 3 passes
    obtain ⟨sp, -⟩ := push_three (a := argc) (b := s.fp) (c := s.nextIp 2) low passes
    refine ⟨_, exec_of_checks (i := .call target argc) passes, sp, fp, rfl, ?argc, ?savedFp, ?savedIp, rfl, ?below⟩
    case argc => rw [slot (by omega), if_neg (by omega), if_neg (by omega), if_pos rfl]
    case savedFp => rw [slot (by omega), if_neg (by omega), if_pos rfl]
    case savedIp => rw [slot (by omega), if_pos rfl, s.nextIp_two]
    case below =>
      intro i old
      rw [slot i.cast_nonneg, if_neg (by omega), if_neg (by omega), if_neg (by omega)]

/-- Settles O35: each check that fails, with those before it passing, gives its fault; when all pass the
effect is the unwinding. -/
theorem retRule : Obligations.RetRule := by
  refine ⟨rfl, fun s => ⟨fun empty => if_neg (not_le.mpr empty), ?shallow, ?noFrame, ?framed⟩⟩
  case shallow =>
    intro nonempty shallow
    have holds : s.holds 1 := nonempty
    exact (if_pos holds).trans (if_neg (not_le.mpr shallow))
  case noFrame =>
    intro nonempty base outside
    have holds : s.holds 1 := nonempty
    exact (if_pos holds).trans ((if_pos base).trans (if_neg (not_le.mpr outside)))
  case framed =>
    rintro n rfl base frame
    rw [exec_ret_of_frame base frame]
    refine ⟨fun negative => if_neg (not_le.mpr negative),
      fun low tooMany => (if_pos low).trans (if_neg (not_le.mpr tooMany)), fun low high => ?unwinds⟩
    case unwinds =>
      exact ⟨_, (if_pos low).trans (if_pos high), unwindFrame_sp low high, State.slot_setSlot_same _ _ _, rfl, rfl,
        rfl, State.slot_lowerSp_setSlot_below _ (Int.sub_nonneg_of_le high)⟩

/-- Settles O36: by the rule of CALL, fp being three above the old sp. -/
theorem callFrameLayout : Obligations.CallFrameLayout := by
  intro s t target argc inv running _ argc_high room hcall
  have low := (inv.bound (by simp [running])).sp_low
  obtain ⟨-, call⟩ := callRule target argc
  obtain ⟨t', calls, -, fp, -, count, savedFp, savedIp, -, below⟩ := (call s low).1 room
  obtain rfl : t' = t := Host.Outcome.next.inj (calls.symm.trans hcall)
  rw [fp]
  refine ⟨fun k first last => ?argument, ?count, ?savedFp, savedIp⟩
  case argument =>
    obtain ⟨i, index⟩ := Int.eq_ofNat_of_zero_le (show 0 ≤ s.sp.toInt - k + 1 by omega)
    rw [show s.sp.toInt + 3 - (2 + k) = i by omega, index, below i (by omega)]
  case count => rwa [show s.sp.toInt + 3 - 2 = s.sp.toInt + 1 by omega]
  case savedFp => rwa [show s.sp.toInt + 3 - 1 = s.sp.toInt + 2 by omega]

/-- Settles O37: by the rules of the two. The link slots hold what CALL pushed, so RET finds the count n and
its checks pass: fp - 2 - n is sp0 + 1. -/
theorem callRetRoundTrip : Obligations.CallRetRoundTrip := by
  intro s t u target argc sp0 argc_low sp0_low pushed room hcall fp_u returned links
  obtain ⟨-, call⟩ := callRule target argc
  obtain ⟨t', calls, -, fp_t, -, count, savedFp, savedIp, -, -⟩ := (call s (by omega)).1 room
  obtain rfl : t' = t := Host.Outcome.next.inj (calls.symm.trans hcall)
  have fp : u.fp.toInt = s.sp.toInt + 3 := fp_u ▸ fp_t
  have link {j : Int} (low : s.sp.toInt + 1 ≤ j) (high : j ≤ s.sp.toInt + 3) : u.slot j = t'.slot j :=
    links j (by omega) (by omega)
  have count_u : u.slot (u.fp.toInt - 2) = argc := by
    rw [show u.fp.toInt - 2 = s.sp.toInt + 1 by omega, link (by omega) (by omega), count]
  have savedFp_u : u.slot (u.fp.toInt - 1) = s.fp := by
    rw [show u.fp.toInt - 1 = s.sp.toInt + 2 by omega, link (by omega) (by omega), savedFp]
  have savedIp_u : u.slot u.fp.toInt = wrapW (s.ip.toInt + 3) := by
    rw [fp, link (by omega) (by omega), savedIp]
  have depth : u.fp.toInt - 2 - argc.toInt = sp0 + 1 := by omega
  obtain ⟨-, ret⟩ := retRule
  obtain ⟨-, -, -, framed⟩ := ret u
  obtain ⟨-, -, unwinds⟩ := framed argc count_u.symm (by omega) (by omega)
  obtain ⟨v, rets, sp, top, ip, fp_v, -, below⟩ := unwinds argc_low (by omega)
  rw [depth] at sp top below
  exact ⟨v, rets, sp, by omega, by rw [sp, top], fp_v.trans savedFp_u, ip.trans savedIp_u,
    fun i kept => below i (by omega)⟩

end Sys2Proof.Machine
end

section
/-! What a fault leaves (R202, R204 to R206). -/

namespace Sys2Proof.Machine

/-- No effect leaves FAULTED: HALT's leaves HALTED, and no other writes RUN_STATE. -/
theorem effect_not_faulted {s : State} (i : Instr) (running : s.runState = .running) :
    (effect i s).runState ≠ .faulted := by
  by_cases halt : i = .halt
  · subst halt
    exact nofun
  · rw [effect_runState s halt, running]
    exact nofun

/-- Settles O12: an effect does not fault; of the three ends that do, each takes one fault from the state at
the start, and only the illegal opcode's also moves ip. -/
theorem faultsArePrecise : Obligations.FaultsArePrecise := by
  intro s t running hs faulted
  rcases step_running_cases running hs with
    ⟨i, _, _, rfl⟩ | ⟨_, c, v, _, _, ⟨_, legal, _⟩, rfl⟩ | ⟨w, _, rfl⟩ | ⟨a, _, rfl⟩
  · exact absurd faulted (effect_not_faulted i running)
  · rw [takeFault_faultCause, if_neg legal]
    rfl
  · rfl
  · rfl

end Sys2Proof.Machine
end

section
/-! Power-on and the host's requests (R35, R230 to R237): what each request answers, and what serving one can do
to the state, said once for all of them. -/

namespace Sys2Proof

/-- A legal stack has a slot (R8). -/
theorem Config.stackCap_pos {c : Config} (h : c.wellFormed = true) : 1 ≤ c.stackCap.toInt := by
  simp only [Config.wellFormed, Bool.and_eq_true, decide_eq_true_eq] at h
  obtain ⟨⟨cap, -⟩, -⟩ := h
  exact cap

namespace Machine

/-- Settles O44: read off the definition. -/
theorem powerOnIsUnbound : Obligations.PowerOnIsUnbound := rfl

/-- Settles O18: the default parameters are legal, the files are empty, and UNBOUND binds no register. -/
theorem resetMeetsInvariant : Obligations.ResetMeetsInvariant where
  config := by decide
  stack_rising := State.reset_stack_rising
  globals_wf := State.reset_globals_wf
  bound := fun bound => absurd powerOnIsUnbound bound

/-- The checks of Initialise pass (R231). -/
abbrev State.accepts (s : State) (program : List Word) (count : Int) : Prop :=
  0 ≤ count ∧ count ≤ s.cfg.globalsMax.toInt ∧ (program.length : Int) ≤ 2147483647

section
variable {s : State}

/-! ### Initialise, Run and Dispose -/

theorem hostInitialise_refused (bound : s.runState ≠ .unbound) (program : List Word) (startIp : Word)
    (count : Int) : hostInitialise program startIp count s = (.refused, s) := if_neg bound

theorem hostInitialise_done {program : List Word} {count : Int} (unbound : s.runState = .unbound)
    (accepted : s.accepts program count) (startIp : Word) :
    hostInitialise program startIp count s = (.done, initialised program startIp count s) :=
  (if_pos unbound).trans (if_neg (by omega))

theorem hostInitialise_fails {program : List Word} {count : Int} (unbound : s.runState = .unbound)
    (rejected : ¬ s.accepts program count) (startIp : Word) :
    hostInitialise program startIp count s = (.allocFailure, s) :=
  (if_pos unbound).trans (if_pos (by omega))

theorem hostRun_done (ready : s.runState = .ready) : hostRun s = (.done, s.setRunState .running) := if_pos ready

theorem hostRun_refused (other : s.runState ≠ .ready) : hostRun s = (.refused, s) := if_neg other

theorem hostDispose_done (stopped : s.runState.stopped = true) : hostDispose s = (.done, disposed s) :=
  if_pos stopped

theorem hostDispose_refused (refusing : ¬ s.runState.stopped = true) : hostDispose s = (.refused, s) :=
  if_neg refusing

theorem initialised_progLen {program : List Word} {count : Int} (accepted : s.accepts program count)
    (startIp : Word) : (initialised program startIp count s).progLen.toInt = program.length :=
  toInt_wrapW (by omega) (by omega)

theorem initialised_nglobals {program : List Word} {count : Int} (accepted : s.accepts program count)
    (startIp : Word) : (initialised program startIp count s).nglobals.toInt = count := by
  have := toInt_high s.cfg.globalsMax
  exact toInt_wrapW (by omega) (by omega)

/-! ### Everything serving a request can do -/

/-- CORE answers and stays as it is, but for the count of draws where a dead slot is read (A8). -/
inductive Answered (s : State) : HostReply × State → Prop
  | unchanged (reply : HostReply) : Answered s (reply, s)
  | drawn (word : Word) : Answered s (.word word, { s with draws := s.draws + 1 })

/-- The reply and the state after a request, with what let the request move CORE. -/
inductive Served (s : State) : HostReply × State → Prop
  | answered {answer : HostReply × State} (answered : Answered s answer) : Served s answer
  | initialised {program : List Word} {count : Int} (startIp : Word) (unbound : s.runState = .unbound)
      (accepted : s.accepts program count) : Served s (.done, initialised program startIp count s)
  | running (ready : s.runState = .ready) : Served s (.done, s.setRunState .running)
  | disposed (stopped : s.runState.stopped = true) : Served s (.done, disposed s)

theorem hostInspect_answered : Answered s (hostInspect s) :=
  iteInduction (fun _ => .unchanged _) fun _ => .unchanged _

theorem hostReadRegister_answered (r : HostReg) : Answered s (hostReadRegister r s) :=
  iteInduction (fun _ => .unchanged _) fun _ => .unchanged _

theorem hostReadGlobal_answered (k : Nat) : Answered s (hostReadGlobal k s) :=
  iteInduction (fun _ => iteInduction (fun _ => .unchanged _) fun _ => .unchanged _) fun _ => .unchanged _

theorem hostReadSlot_answered (i : Nat) : Answered s (hostReadSlot i s) :=
  iteInduction (fun _ => iteInduction (fun _ => .unchanged _) fun _ =>
    iteInduction (fun _ => .drawn _) fun _ => .unchanged _) fun _ => .unchanged _

theorem hostInitialise_served (program : List Word) (startIp : Word) (count : Int) :
    Served s (hostInitialise program startIp count s) := by
  by_cases unbound : s.runState = .unbound
  · by_cases accepted : s.accepts program count
    · rw [hostInitialise_done unbound accepted]
      exact .initialised startIp unbound accepted
    · rw [hostInitialise_fails unbound accepted]
      exact .answered (.unchanged _)
  · rw [hostInitialise_refused unbound]
    exact .answered (.unchanged _)

theorem serve_served (req : HostRequest) (s : State) : Served s (serve req s) := by
  cases req with
  | initialise program startIp count => exact hostInitialise_served program startIp count
  | run => exact iteInduction .running fun _ => .answered (.unchanged _)
  | dispose => exact iteInduction .disposed fun _ => .answered (.unchanged _)
  | inspect => exact .answered hostInspect_answered
  | readRegister r => exact .answered (hostReadRegister_answered r)
  | readGlobal k => exact .answered (hostReadGlobal_answered k)
  | readSlot i => exact .answered (hostReadSlot_answered i)

/-! ### The invariant -/

/-- Initialise binds a program to an empty stack, globals of 0 and no fault (R35). -/
theorem initialised_inv {program : List Word} {count : Int} (h : s.Inv) (accepted : s.accepts program count)
    (startIp : Word) : (initialised program startIp count s).Inv where
  config := h.config
  stack_rising := Memory.rising_nil
  globals_wf := Memory.wf_nil
  bound := fun _ =>
    { sp_low := le_rfl
      sp_high := by
        have cap := Config.stackCap_pos h.config
        show (-1 : Int) ≤ s.cfg.stackCap.toInt - 1
        omega
      stack_live := fun i => iff_of_false nofun (by
        show ¬ (i : Int) ≤ -1
        omega)
      globals_fit := nofun
      nglobals_low := by rw [initialised_nglobals accepted]; exact accepted.1
      nglobals_high := by rw [initialised_nglobals accepted]; exact accepted.2.1
      prog_len := initialised_progLen accepted startIp
      cause := iff_of_true rfl nofun }

/-- Run starts a READY core, which records no fault (R232). -/
theorem State.Inv.run (h : s.Inv) (ready : s.runState = .ready) : (s.setRunState .running).Inv :=
  { h with bound := fun _ =>
    have b : s.Bound := h.bound (by simp [ready])
    { b with cause := by simpa [ready] using b.cause } }

/-- UNBOUND binds no register, so of the free values of Dispose only the globals' listing matters (R234). -/
theorem disposed_inv (h : s.Inv) : (disposed s).Inv where
  config := h.config
  stack_rising := Memory.rising_nil
  globals_wf := Memory.wf_ofCells _
  bound := fun bound => absurd rfl bound

theorem Answered.inv {answer : HostReply × State} (answered : Answered s answer) (h : s.Inv) : answer.2.Inv := by
  cases answered with
  | unchanged => exact h
  | drawn => exact { h with bound := fun hb => { h.bound hb with } }

theorem Served.inv {answer : HostReply × State} (served : Served s answer) (h : s.Inv) : answer.2.Inv := by
  cases served with
  | answered answered => exact answered.inv h
  | initialised startIp _ accepted => exact initialised_inv h accepted startIp
  | running ready => exact h.run ready
  | disposed => exact disposed_inv h

/-! ### Refusals and RUN_STATE -/

theorem Answered.runState {answer : HostReply × State} (answered : Answered s answer) :
    answer.2.runState = s.runState := by
  cases answered <;> rfl

theorem Served.eq_of_refused {answer : HostReply × State} (served : Served s answer)
    (refused : answer.1 = .refused) : answer.2 = s := by
  cases served with
  | answered answered =>
    cases answered with
    | unchanged => rfl
    | drawn => exact nomatch refused
  | initialised | running | disposed => exact nomatch refused

theorem step_runState {t : State} (hs : step s = .next t) : t.runState = s.runState ∨
    (s.runState = .running ∧ (t.runState = .halted ∨ t.runState = .faulted)) := by
  by_cases running : s.runState = .running
  · rcases runStopsOnlyByHaltOrFault s t running hs with ⟨stays, -⟩ | ⟨halted, -⟩ | ⟨faulted, -⟩
    · exact .inl (stays.trans running.symm)
    · exact .inr ⟨running, .inl halted⟩
    · exact .inr ⟨running, .inr faulted⟩
  · rw [step_idle running] at hs
    cases hs
    exact .inl rfl

/-! ### UNBOUND -/

theorem serve_readRunState : serve (.readRegister .runState) s = (.word (runStateCode s.runState), s) :=
  if_pos (.inr rfl)

end

/-- In UNBOUND every request but Initialise and a read of RUN_STATE is refused (R235, R236). -/
theorem unbound_refuses (req : HostRequest) :
    (∃ program startIp count, req = .initialise program startIp count) ∨ req = .readRegister .runState ∨
    ∀ s : State, s.runState = .unbound → serve req s = (.refused, s) := by
  have refuses {s : State} (unbound : s.runState = .unbound) : ¬ s.runState.stopped = true :=
    RunState.not_stopped_of_refusing (.inl unbound)
  cases req with
  | initialise program startIp count => exact .inl ⟨program, startIp, count, rfl⟩
  | run => exact .inr (.inr fun s unbound => hostRun_refused (by simp [unbound]))
  | dispose | inspect | readGlobal | readSlot => exact .inr (.inr fun s unbound => if_neg (refuses unbound))
  | readRegister r =>
    by_cases state : r = .runState
    · exact .inr (.inl (congrArg _ state))
    · exact .inr (.inr fun s unbound => hostReadRegister_refused (refuses unbound) state)

/-- Settles O20: each of the things serving a request can do keeps the invariant. -/
theorem hostRequestsKeepInvariant : Obligations.HostRequestsKeepInvariant := fun s req h =>
  (serve_served req s).inv h

/-- Settles O45: the three outcomes of Initialise, and the fields of the state it leaves. -/
theorem initialiseRule : Obligations.InitialiseRule := by
  refine fun s program startIp count => ⟨fun bound => hostInitialise_refused bound program startIp count,
    fun unbound => ⟨fun failing => ?fails, fun low high short => ?done⟩⟩
  case fails => exact hostInitialise_fails unbound (by omega) startIp
  case done =>
    have accepted : s.accepts program count := ⟨low, high, short⟩
    exact ⟨_, hostInitialise_done unbound accepted startIp, rfl, rfl, rfl, fun _ => rfl, rfl, rfl, rfl, rfl, rfl,
      rfl, initialised_progLen accepted startIp, rfl, initialised_nglobals accepted startIp, rfl⟩

/-- Settles O46: by the outcomes of each request, and what a step does to RUN_STATE. -/
theorem lifecycleTable : Obligations.LifecycleTable := by
  refine ⟨fun s t => step_runState, fun s => ⟨fun program startIp count =>
    ⟨fun unbound => ?initialise, fun bound => hostInitialise_refused bound program startIp count⟩,
    hostRun_done, hostRun_refused, fun inspectable => ?dispose,
    fun refusing => hostDispose_refused (RunState.not_stopped_of_refusing refusing),
    fun r k => ⟨hostInspect_answered.runState, (hostReadRegister_answered r).runState,
      (hostReadGlobal_answered k).runState, (hostReadSlot_answered k).runState⟩⟩⟩
  case initialise =>
    simp only [serve]
    by_cases accepted : s.accepts program count
    · rw [hostInitialise_done unbound accepted]; exact .inl ⟨rfl, rfl⟩
    · rw [hostInitialise_fails unbound accepted]; exact .inr ⟨rfl, rfl⟩
  case dispose =>
    simp only [serve]
    rw [hostDispose_done (RunState.stopped_of_inspectable inspectable)]
    exact ⟨rfl, rfl, rfl⟩

/-- Settles O48: a refusal is no outcome that moves the state; that each of these is refused is in the rules of
Initialise, of the lifecycle and of Inspect. -/
theorem refusedRequests : Obligations.RefusedRequests := by
  refine ⟨fun s req => (serve_served req s).eq_of_refused, fun s =>
    ⟨fun bound program startIp count => congrArg Prod.fst (hostInitialise_refused bound program startIp count),
    fun other => congrArg Prod.fst (hostRun_refused other), fun refusing => ?stopped⟩⟩
  case stopped =>
    obtain ⟨-, -, -, inspects, -⟩ := inspectRule s
    obtain ⟨whole, register, piece⟩ := inspects refusing
    exact ⟨congrArg Prod.fst (hostDispose_refused (RunState.not_stopped_of_refusing refusing)),
      congrArg Prod.fst whole, fun r other => congrArg Prod.fst (register r other),
      fun k => (piece k).imp (congrArg Prod.fst) (congrArg Prod.fst)⟩

/-- Settles O49: Initialise reads only the parameters and writes everything else; every other request but a read
of RUN_STATE is refused. -/
theorem unboundRegistersNeverRead : Obligations.UnboundRegistersNeverRead := by
  intro s t req unbound_s unbound_t cfg
  rcases unbound_refuses req with ⟨program, startIp, count, rfl⟩ | rfl | refused
  · have same : s.accepts program count ↔ t.accepts program count := by rw [State.accepts, cfg]
    simp only [serve]
    by_cases accepted : s.accepts program count
    · rw [hostInitialise_done unbound_s accepted, hostInitialise_done unbound_t (same.mp accepted)]
      exact ⟨rfl, fun _ => by simp only [initialised, cfg]⟩
    · rw [hostInitialise_fails unbound_s accepted, hostInitialise_fails unbound_t (mt same.mpr accepted)]
      exact ⟨rfl, nofun⟩
  · rw [serve_readRunState, serve_readRunState, unbound_s, unbound_t]
    exact ⟨rfl, nofun⟩
  · rw [refused s unbound_s, refused t unbound_t]
    exact ⟨rfl, nofun⟩

end Machine
end Sys2Proof
end

section
/-! The result of a run (R240): a run that has ended stays as it is. -/

namespace Sys2Proof.Machine

/-- Steps in a row are one run. -/
theorem runSteps_add (m n : Nat) (s : State) : runSteps (m + n) s = runSteps n (runSteps m s) := by
  induction m generalizing s with
  | zero => rw [Nat.zero_add]; rfl
  | succ m ih =>
    obtain ⟨t, stepped⟩ := stepAlwaysAnswersNext s
    simp only [Nat.succ_add, runSteps, stepped, ih]

theorem State.ended.not_running {s : State} (h : s.ended) : s.runState ≠ .running := by
  rcases h with halted | faulted
  · simp [halted]
  · simp [faulted]

theorem runSteps_of_ended {s : State} {m n : Nat} (h : (runSteps m s).ended) (le : m ≤ n) :
    runSteps n s = runSteps m s := by
  obtain ⟨k, rfl⟩ := Nat.exists_eq_add_of_le le
  rw [runSteps_add, runSteps_idle h.not_running]

/-- Settles O51: the longer of the two runs stays where the shorter has ended. -/
theorem runResultIsUnique : Obligations.RunResultIsUnique := by
  intro s m n ended_m ended_n
  have same : runSteps m s = runSteps n s := by
    rcases Nat.le_total m n with le | le
    · exact (runSteps_of_ended ended_m le).symm
    · exact runSteps_of_ended ended_n le
  exact ⟨same, congrArg State.result same⟩

end Sys2Proof.Machine
end
